-- ==== Sys2Proof/Word.lean ====
section
/-! DEFINITION. The word types of UCB (10_state.md R15, R16, R28, R29; 00_scope.md R8). -/

namespace Sys2Proof

/-- One byte; `b[7:4]` is its high nibble (R8). -/
abbrev Byte := BitVec 8

/-- A command word, and the data of one host access (R32, R49). -/
abbrev Word := BitVec 32

/-- A scalar register's content, 64 bits unsigned (R16). -/
abbrev Scalar := BitVec 64

/-- A UUID value: 16 bytes `u[0] .. u[15]`, `u[0]` first (R8, R15). -/
abbrev Value := Vector Byte 16

/-- The content of `IBUF` or `OBUF`: 64 bytes (R28, R29). -/
abbrev Buffer := Vector Byte 64

/-- The nil value: sixteen zero bytes (R87). -/
def nilValue : Value := Vector.replicate 16 0#8

/-- A buffer of zeros. -/
def zeroBuffer : Buffer := Vector.replicate 64 0#8

end Sys2Proof
end

