-- ==== Sys2Proof/Config.lean ====
section
/-! DEFINITION. What an implementation fixes, and the free values (00_scope.md R6, R7). -/

namespace Sys2Proof.Config

/-- `EPOCH_OFFSET`: 100-ns intervals from 1582-10-15 to 1970-01-01 (R6, R7). -/
def epochOffset : Scalar := 0x01B21DD213814000#64

/-- `IN_MAX`: the largest input length normalisation accepts (R6). -/
def inMax : Nat := 64

/-- The constant the `ID` register reads (10_state.md R27). -/
def idWord : Word := 0x55434201#32

/-- Which 512-byte window of the platform's address space holds the block: the open parameter
`UCB_BASE` divided by 0x200 (R6). Log entry 5. -/
opaque windowIndex : Nat

/-- `UCB_BASE`, "a multiple of 0x200" (R6). -/
def ucbBase : Nat := 0x200 * windowIndex

/-- The free choice of 70_reset_and_hazards.md R120: whether the `n`-th `STATUS` read presented
while a command is in flight is answered before that command completes. It stands for the open
latency `UCB_LAT` (R119). Log entry 3. -/
opaque statusReadSeesBusy : Nat → Bool

end Sys2Proof.Config
end

