-- ==== Sys2Proof/Syntax.lean ====
section
/-! DEFINITION. The commands of UCB: one constructor per row of spec/opcode_table.json
(30_encoding.md R53). -/

namespace Sys2Proof

/-- The number of a value register, a plain 3-bit number 0..7 (R51). -/
abbrev VReg := Fin 8

/-- The number of a scalar register, a plain 3-bit number 0..7 (R51). -/
abbrev RReg := Fin 8

/-- A command with its operands, in field order `d`, `s`, `t`, `imm`, `m` (R50, R53, R58). The
source field `s` is called `src` here. -/
inductive Instr where
  | parse (d : VReg)
  | fmt (src : VReg)
  | hex (src : VReg)
  | urn (src : VReg)
  | raw (src : VReg)
  | setver (d src : VReg) (imm : BitVec 4)
  | setvar (d src : VReg)
  | stamp (d src : VReg) (imm : BitVec 4)
  | getver (d : RReg) (src : VReg)
  | getvar (d : RReg) (src : VReg)
  | packv1 (d src : VReg) (t : RReg) (m : Bool)
  | packv6 (d src : VReg) (t : RReg) (m : Bool)
  | packv7 (d src : VReg) (t : RReg)
  | gettime (d : RReg) (src : VReg)
  | getnode (d : RReg) (src : VReg)
  | nodehex (src : VReg)
  | tofor (d src : VReg)
  | fromfor (d src : VReg)
  | forin (d : VReg)
  | order (d src : VReg)
  | nil (d : VReg)
  | isnil (d : RReg) (src : VReg)
  | isnilin (d : RReg)
  | valid (d : RReg)
  | cmp (d : RReg) (src t : VReg)
  | movv (d src : VReg)
  | clrerr
  deriving DecidableEq, Repr

end Sys2Proof
end

