-- ==== Sys2Proof/WellFormed.lean ====
section
/-! DEFINITION. The fields of a command word (30_encoding.md R50) and the checks that make a word
legal, field by field: an assigned opcode, reserved bits 0, unused fields 0 (R51, R54). The
operands of an `Instr` are bounded by their types, so that every command's fields pass (`Instr.wf`,
Decode.lean); the range of `imm` is checked when the command runs, not here (R52). -/

namespace Sys2Proof

/-- The fields of a command word (R50). -/
structure Fields where
  op       : BitVec 8
  d        : BitVec 3
  s        : BitVec 3
  t        : BitVec 3
  imm      : BitVec 4
  m        : BitVec 1
  reserved : BitVec 10
  deriving DecidableEq, Repr

/-- Which fields a row of the opcode map uses (R53). -/
structure Uses where
  d   : Bool := false
  s   : Bool := false
  t   : Bool := false
  imm : Bool := false
  m   : Bool := false
  deriving DecidableEq, Repr

/-- The opcode map's columns `d`, `s`, `t`, `imm`, `m`; `none` for an unassigned opcode (R53). -/
def usesOf (op : BitVec 8) : Option Uses :=
  if op = 0x10#8 then some { d := true }
  else if op = 0x11#8 then some { s := true }
  else if op = 0x12#8 then some { s := true }
  else if op = 0x13#8 then some { s := true }
  else if op = 0x14#8 then some { s := true }
  else if op = 0x20#8 then some { d := true, s := true, imm := true }
  else if op = 0x21#8 then some { d := true, s := true }
  else if op = 0x22#8 then some { d := true, s := true, imm := true }
  else if op = 0x23#8 then some { d := true, s := true }
  else if op = 0x24#8 then some { d := true, s := true }
  else if op = 0x30#8 then some { d := true, s := true, t := true, m := true }
  else if op = 0x31#8 then some { d := true, s := true, t := true, m := true }
  else if op = 0x32#8 then some { d := true, s := true, t := true }
  else if op = 0x40#8 then some { d := true, s := true }
  else if op = 0x41#8 then some { d := true, s := true }
  else if op = 0x42#8 then some { s := true }
  else if op = 0x50#8 then some { d := true, s := true }
  else if op = 0x51#8 then some { d := true, s := true }
  else if op = 0x52#8 then some { d := true }
  else if op = 0x53#8 then some { d := true, s := true }
  else if op = 0x60#8 then some { d := true }
  else if op = 0x61#8 then some { d := true, s := true }
  else if op = 0x62#8 then some { d := true }
  else if op = 0x63#8 then some { d := true }
  else if op = 0x64#8 then some { d := true, s := true, t := true }
  else if op = 0x70#8 then some { d := true, s := true }
  else if op = 0x71#8 then some {}
  else none

/-- Why a command word is illegal (R54). The hardware reports every one of them as
ILLEGAL_COMMAND; the names are the model's diagnosis and enter no state. -/
inductive IllFormed where
  /-- The opcode is 0x00 or not in the opcode map. -/
  | unassignedOpcode
  /-- A reserved bit 31:22 is set. -/
  | reservedBitSet
  /-- Field `d` is unused by the row and not 0. -/
  | unusedD
  /-- Field `s` is unused by the row and not 0. -/
  | unusedS
  /-- Field `t` is unused by the row and not 0. -/
  | unusedT
  /-- Field `imm` is unused by the row and not 0. -/
  | unusedImm
  /-- Field `m` is unused by the row and not 0. -/
  | unusedM
  deriving DecidableEq, Repr

/-- The first check the fields fail, if any (R54). -/
def Fields.check (f : Fields) : Option IllFormed :=
  match usesOf f.op with
  | none => some .unassignedOpcode
  | some u =>
    if f.reserved ≠ 0 then some .reservedBitSet
    else if u.d = false ∧ f.d ≠ 0 then some .unusedD
    else if u.s = false ∧ f.s ≠ 0 then some .unusedS
    else if u.t = false ∧ f.t ≠ 0 then some .unusedT
    else if u.imm = false ∧ f.imm ≠ 0 then some .unusedImm
    else if u.m = false ∧ f.m ≠ 0 then some .unusedM
    else none

/-- The fields are those of a legal command (R54). -/
abbrev Fields.wf (f : Fields) : Prop := f.check = none

end Sys2Proof
end

