-- ==== Sys2Proof/Decode.lean ====
section
/-! DEFINITION. Decoding a command word, total, by the mask and match rows of 30_encoding.md R53
and R54; and after it the encoder, from the field layout of R50 and R58. -/

namespace Sys2Proof

/-- The fields of the word `w` (R50). -/
def fieldsOf (w : Word) : Fields where
  op       := w.extractLsb' 0 8
  d        := w.extractLsb' 8 3
  s        := w.extractLsb' 11 3
  t        := w.extractLsb' 14 3
  imm      := w.extractLsb' 17 4
  m        := w.extractLsb' 21 1
  reserved := w.extractLsb' 22 10

/-- A register number read from three bits of a word (R51). -/
def regField (w : Word) (lo : Nat) : Fin 8 := ⟨(w.extractLsb' lo 3).toNat, (w.extractLsb' lo 3).isLt⟩

/-- Field `d`, bits 10:8 (R50). -/
def fieldD (w : Word) : Fin 8 := regField w 8
/-- Field `s`, bits 13:11 (R50). -/
def fieldS (w : Word) : Fin 8 := regField w 11
/-- Field `t`, bits 16:14 (R50). -/
def fieldT (w : Word) : Fin 8 := regField w 14
/-- Field `imm`, bits 20:17 (R50, R52). -/
def fieldImm (w : Word) : BitVec 4 := w.extractLsb' 17 4
/-- Field `m`, bit 21 (R50, R52). -/
def fieldM (w : Word) : Bool := w.getLsbD 21

/-- A row of the opcode map: its match value (its opcode), its mask, and the command its fields
give (R53). -/
structure Row where
  op    : Word
  mask  : Word
  build : Word → Instr

/-- Opcodes 0x1_: ByteCodec (R53). -/
def codecRows : List Row :=
  [ ⟨0x10#32, 0xFFFFF8FF#32, fun w => .parse (fieldD w)⟩,
    ⟨0x11#32, 0xFFFFC7FF#32, fun w => .fmt (fieldS w)⟩,
    ⟨0x12#32, 0xFFFFC7FF#32, fun w => .hex (fieldS w)⟩,
    ⟨0x13#32, 0xFFFFC7FF#32, fun w => .urn (fieldS w)⟩,
    ⟨0x14#32, 0xFFFFC7FF#32, fun w => .raw (fieldS w)⟩ ]

/-- Opcodes 0x2_: BitFields (R53). -/
def bitFieldRows : List Row :=
  [ ⟨0x20#32, 0xFFE1C0FF#32, fun w => .setver (fieldD w) (fieldS w) (fieldImm w)⟩,
    ⟨0x21#32, 0xFFFFC0FF#32, fun w => .setvar (fieldD w) (fieldS w)⟩,
    ⟨0x22#32, 0xFFE1C0FF#32, fun w => .stamp (fieldD w) (fieldS w) (fieldImm w)⟩,
    ⟨0x23#32, 0xFFFFC0FF#32, fun w => .getver (fieldD w) (fieldS w)⟩,
    ⟨0x24#32, 0xFFFFC0FF#32, fun w => .getvar (fieldD w) (fieldS w)⟩ ]

/-- Opcodes 0x3_: VersionMinters layouts (R53). -/
def packerRows : List Row :=
  [ ⟨0x30#32, 0xFFDE00FF#32, fun w => .packv1 (fieldD w) (fieldS w) (fieldT w) (fieldM w)⟩,
    ⟨0x31#32, 0xFFDE00FF#32, fun w => .packv6 (fieldD w) (fieldS w) (fieldT w) (fieldM w)⟩,
    ⟨0x32#32, 0xFFFE00FF#32, fun w => .packv7 (fieldD w) (fieldS w) (fieldT w)⟩ ]

/-- Opcodes 0x4_: accessors (R53). -/
def accessorRows : List Row :=
  [ ⟨0x40#32, 0xFFFFC0FF#32, fun w => .gettime (fieldD w) (fieldS w)⟩,
    ⟨0x41#32, 0xFFFFC0FF#32, fun w => .getnode (fieldD w) (fieldS w)⟩,
    ⟨0x42#32, 0xFFFFC7FF#32, fun w => .nodehex (fieldS w)⟩ ]

/-- Opcodes 0x5_: ForeignByteOrder and the clustering order (R53). -/
def byteOrderRows : List Row :=
  [ ⟨0x50#32, 0xFFFFC0FF#32, fun w => .tofor (fieldD w) (fieldS w)⟩,
    ⟨0x51#32, 0xFFFFC0FF#32, fun w => .fromfor (fieldD w) (fieldS w)⟩,
    ⟨0x52#32, 0xFFFFF8FF#32, fun w => .forin (fieldD w)⟩,
    ⟨0x53#32, 0xFFFFC0FF#32, fun w => .order (fieldD w) (fieldS w)⟩ ]

/-- Opcodes 0x6_: NilAndValidate and compare (R53). -/
def nilValidateRows : List Row :=
  [ ⟨0x60#32, 0xFFFFF8FF#32, fun w => .nil (fieldD w)⟩,
    ⟨0x61#32, 0xFFFFC0FF#32, fun w => .isnil (fieldD w) (fieldS w)⟩,
    ⟨0x62#32, 0xFFFFF8FF#32, fun w => .isnilin (fieldD w)⟩,
    ⟨0x63#32, 0xFFFFF8FF#32, fun w => .valid (fieldD w)⟩,
    ⟨0x64#32, 0xFFFE00FF#32, fun w => .cmp (fieldD w) (fieldS w) (fieldT w)⟩ ]

/-- Opcodes 0x7_: housekeeping (R53). -/
def housekeepingRows : List Row :=
  [ ⟨0x70#32, 0xFFFFC0FF#32, fun w => .movv (fieldD w) (fieldS w)⟩,
    ⟨0x71#32, 0xFFFFFFFF#32, fun _ => .clrerr⟩ ]

/-- The opcode map (R53). -/
def opcodeMap : List Row :=
  codecRows ++ bitFieldRows ++ packerRows ++ accessorRows ++ byteOrderRows ++ nilValidateRows
    ++ housekeepingRows

/-- "A command word `w` selects row `r` when `w & mask(r) == op(r)`" (R53). -/
def Row.selectedBy (r : Row) (w : Word) : Bool := w &&& r.mask == r.op

/-- What decoding answers: the command, or that the word is illegal and why (R54). -/
inductive Decoded where
  | legal (i : Instr)
  | illegal (why : IllFormed)
  deriving DecidableEq, Repr

/-- Decoding, R54's `decode(w)`: it reads nothing but `w`. -/
def decode (w : Word) : Decoded :=
  match opcodeMap.find? (fun r => r.selectedBy w) with
  | some r => .legal (r.build w)
  | none => .illegal ((fieldsOf w).check.getD .unassignedOpcode)

/-- The opcode of a command, `w[7:0]` (R53). -/
def Instr.opcode : Instr → BitVec 8
  | .parse _ => 0x10#8
  | .fmt _ => 0x11#8
  | .hex _ => 0x12#8
  | .urn _ => 0x13#8
  | .raw _ => 0x14#8
  | .setver _ _ _ => 0x20#8
  | .setvar _ _ => 0x21#8
  | .stamp _ _ _ => 0x22#8
  | .getver _ _ => 0x23#8
  | .getvar _ _ => 0x24#8
  | .packv1 _ _ _ _ => 0x30#8
  | .packv6 _ _ _ _ => 0x31#8
  | .packv7 _ _ _ => 0x32#8
  | .gettime _ _ => 0x40#8
  | .getnode _ _ => 0x41#8
  | .nodehex _ => 0x42#8
  | .tofor _ _ => 0x50#8
  | .fromfor _ _ => 0x51#8
  | .forin _ => 0x52#8
  | .order _ _ => 0x53#8
  | .nil _ => 0x60#8
  | .isnil _ _ => 0x61#8
  | .isnilin _ => 0x62#8
  | .valid _ => 0x63#8
  | .cmp _ _ _ => 0x64#8
  | .movv _ _ => 0x70#8
  | .clrerr => 0x71#8

/-- The word with the given fields: `op | d << 8 | s << 11 | t << 14 | imm << 17 | m << 21`, and
the reserved field at bit 22 (R50, R58). -/
def Fields.toWord (f : Fields) : Word :=
  f.op.setWidth 32 ||| (f.d.setWidth 32 <<< 8) ||| (f.s.setWidth 32 <<< 11)
    ||| (f.t.setWidth 32 <<< 14) ||| (f.imm.setWidth 32 <<< 17) ||| (f.m.setWidth 32 <<< 21)
    ||| (f.reserved.setWidth 32 <<< 22)

/-- A register number as a 3-bit field (R51). -/
def regBits (n : Fin 8) : BitVec 3 := BitVec.ofNat 3 n.val

/-- The fields of a command: its opcode, its operands, and 0 in every other field (R50, R53). -/
def Instr.fields (i : Instr) : Fields :=
  let f : Fields := { op := i.opcode, d := 0, s := 0, t := 0, imm := 0, m := 0, reserved := 0 }
  match i with
  | .parse d | .forin d | .nil d | .isnilin d | .valid d => { f with d := regBits d }
  | .fmt src | .hex src | .urn src | .raw src | .nodehex src => { f with s := regBits src }
  | .setver d src imm | .stamp d src imm =>
      { f with d := regBits d, s := regBits src, imm := imm }
  | .setvar d src | .getver d src | .getvar d src | .gettime d src | .getnode d src
  | .tofor d src | .fromfor d src | .order d src | .isnil d src | .movv d src =>
      { f with d := regBits d, s := regBits src }
  | .packv1 d src t m | .packv6 d src t m =>
      { f with d := regBits d, s := regBits src, t := regBits t, m := BitVec.ofBool m }
  | .packv7 d src t | .cmp d src t =>
      { f with d := regBits d, s := regBits src, t := regBits t }
  | .clrerr => f

/-- A command is well formed when its fields pass every check. The operand types make it so for
every term of `Instr` (Laws/PerInstr.lean). -/
abbrev Instr.wf (i : Instr) : Prop := i.fields.wf

/-- The word of a command: "`op | d << 8 | s << 11 | t << 14 | imm << 17 | m << 21`" (R58). -/
def encode (i : Instr) : Word := i.fields.toWord

/-- The command `decode` reads from an opcode table row's word: every command is one 32-bit word
(R49), so the `nbits` bits of `w` are its low bits and the rest are 0. -/
def decodeTableWord (nbits w : Nat) : Option Instr :=
  match decode (BitVec.ofNat 32 (w % 2 ^ nbits)) with
  | .legal i => some i
  | .illegal _ => none

end Sys2Proof
end

