-- ==== Sys2Proof/Machine/State.lean ====
section
/-! DEFINITION. The state of UCB as plain data (10_state.md R14), with the host port's inputs and
answers (20_memory.md R32), the reasons a step may stop, and the state after reset
(70_reset_and_hazards.md R111). -/

namespace Sys2Proof.Machine

/-- The error codes of 60_exceptions.md R94. Codes 7..15 are reserved and have no name. -/
inductive ErrorCode where
  /-- 0: the last command succeeded. -/
  | noError
  /-- 1: raised by PARSE. -/
  | invalidLength
  /-- 2: raised by SETVER and STAMP. -/
  | unsupportedVersion
  /-- 3: assigned for host software, never raised by the block. -/
  | missingName
  /-- 4: assigned for host software, never raised by the block. -/
  | missingNamespace
  /-- 5: raised by FORIN. -/
  | invalidForeignFormat
  /-- 6: raised by any illegal command word. -/
  | illegalCommand
  deriving DecidableEq, Repr

/-- One host access: the signals `we`, `addr`, `size` and `wdata` (R32), with `req` held until
`ack` (R33). -/
structure Access where
  we    : Bool
  addr  : BitVec 9
  size  : BitVec 2
  wdata : Word
  deriving DecidableEq, Repr

/-- One input of the host. -/
inductive HostInput where
  /-- An access, presented until it is acknowledged (R33). -/
  | access (a : Access)
  /-- A rising edge with `rst = 1`, and the access in progress at it, if any: it is not
  acknowledged (R111). -/
  | reset (during : Option Access)
  deriving DecidableEq, Repr

/-- What the port answers to one access: `ack` with `err` and `rdata` (R32). -/
inductive Reply where
  /-- A write completed: `ack = 1`, `err = 0`. -/
  | written
  /-- A read completed: `ack = 1`, `err = 0`, `rdata = w`. -/
  | data (w : Word)
  /-- The access failed: `ack = 1`, `err = 1`, `rdata = 0` (R37). -/
  | busError
  deriving DecidableEq, Repr

/-- Faults: none. The block never halts (70_reset_and_hazards.md R121) and every command completes
(R119), so no step ends in a fault. Log entry 10. -/
inductive Fault where
  deriving DecidableEq, Repr

/-- Refusals. -/
inductive Refusal where
  /-- The dispatcher's rejection of a command that has no meaning yet. Safe. No arm uses it: every
  command has its meaning. -/
  | notModelled (mnemonic : String)
  deriving DecidableEq, Repr

/-- The state of the block, and below the line the model's host interface. -/
structure State where
  /-- `V0..V7` (R15). -/
  v         : Vector Value 8
  /-- `R0..R7` (R16). -/
  r         : Vector Scalar 8
  /-- `STATUS.STICKY` (R22). -/
  sticky    : Bool
  /-- `STATUS.ERR` (R23). -/
  err       : ErrorCode
  /-- `STATUS.TV` (R19, R20). -/
  tv        : Bool
  /-- `STATUS.TN` (R19, R20). -/
  tn        : Bool
  /-- `STATUS.TU` (R19, R20). -/
  tu        : Bool
  /-- `STATUS.NV` (R19, R20). -/
  nv        : Bool
  /-- `ILEN`, 7 bits (R25). -/
  ilen      : BitVec 7
  /-- `IBUF` (R28). -/
  ibuf      : Buffer
  /-- `OLEN`, 7 bits (R26). -/
  olen      : BitVec 7
  /-- `OBUF` (R29). -/
  obuf      : Buffer
  /-- The in-flight command: the word written to `CMD` whose completion has not happened yet. It
  is `some` exactly while `STATUS.BUSY = 1` (R30). Log entry 2. -/
  inflight  : Option Word
  /-- The host's inputs still to come, oldest first (R33). The model's own field, log entry 1. -/
  pending   : List HostInput
  /-- What the port has answered, oldest first. The model's own field, log entry 7. -/
  replies   : List Reply
  /-- How many free choices of R120 have been taken. The model's own field, log entry 3. -/
  busyReads : Nat
  deriving DecidableEq, Repr

/-- The outcome of a command or a step. -/
abbrev Result := Host.Outcome State Fault Refusal

/-- The state right after reset (R111); the three fields of the host interface are empty (log
entries 1, 3 and 7). -/
def State.reset : State where
  v         := Vector.replicate 8 nilValue
  r         := Vector.replicate 8 0#64
  sticky    := false
  err       := .noError
  tv        := false
  tn        := false
  tu        := false
  nv        := false
  ilen      := 0
  ibuf      := zeroBuffer
  olen      := 0
  obuf      := zeroBuffer
  inflight  := none
  pending   := []
  replies   := []
  busyReads := 0

end Sys2Proof.Machine
end

