-- ==== Sys2Proof/Machine/Operands.lean ====
section
/-! DEFINITION. Operand forms and the byte-level functions of the commands: integers from bytes
and back (00_scope.md R11), hex digits, normalising the input buffer (41_codec.md R60), the
canonical string (R61), the bit fields (42_bitfields.md), the packed layouts (43_packers.md), the
byte permutations (45_byteorder.md), and the byte lanes of the host port (20_memory.md R38). -/

namespace Sys2Proof.Machine

/-! ### Integers and bytes -/

/-- The unsigned integer of a list of bytes, most significant first. -/
def beNat (bs : List Byte) : Nat := bs.foldl (fun acc b => acc * 256 + b.toNat) 0

/-- `be(u, i, n)`: the unsigned integer of the bytes `u[i] .. u[i+n-1]` (R11). -/
def be (u : Value) (i n : Nat) : Nat := beNat ((u.toList.drop i).take n)

/-- `bytes_be(x, n)`: the `n` bytes of `x mod 2^(8n)`, most significant first (R11). -/
def bytesBe (x n : Nat) : Vector Byte n :=
  Vector.ofFn fun j => BitVec.ofNat 8 (x / 2 ^ (8 * (n - 1 - j.val)))

/-- The high nibble `b[7:4]` (R8). -/
def hiNibble (b : Byte) : BitVec 4 := b.extractLsb' 4 4

/-- The low nibble `b[3:0]` (R8). -/
def loNibble (b : Byte) : BitVec 4 := b.extractLsb' 0 4

/-! ### Hex digits and strings (R60, R61) -/

/-- A hex digit is a byte in 0x30-0x39, 0x41-0x46 or 0x61-0x66 (R60). -/
def isHexDigit (c : Byte) : Bool :=
  (0x30 ≤ c.toNat && c.toNat ≤ 0x39) || (0x41 ≤ c.toNat && c.toNat ≤ 0x46)
    || (0x61 ≤ c.toNat && c.toNat ≤ 0x66)

/-- `hexval`: `0`-`9` to 0-9, both `a`-`f` and `A`-`F` to 10-15 (R60). -/
def hexVal (c : Byte) : Nat :=
  if c.toNat ≤ 0x39 then c.toNat - 0x30
  else if c.toNat ≤ 0x46 then c.toNat - 0x41 + 10
  else c.toNat - 0x61 + 10

/-- `hexdigit(n)`: the ASCII byte of `0123456789abcdef` at position `n` (R11). -/
def hexDigit (n : BitVec 4) : Byte :=
  if n.toNat < 10 then BitVec.ofNat 8 (0x30 + n.toNat) else BitVec.ofNat 8 (0x61 + (n.toNat - 10))

/-- `hex2(b)`: two lower-case digits, the high nibble first (R61). -/
def hex2 (b : Byte) : List Byte := [hexDigit (hiNibble b), hexDigit (loNibble b)]

/-- `hexs` over a list of bytes (R61). -/
def hexs (bs : List Byte) : List Byte := bs.flatMap hex2

/-- The bytes `u[i] .. u[j]`, inclusive (R11). -/
def slice (u : Value) (i j : Nat) : List Byte := (u.toList.drop i).take (j + 1 - i)

/-- The ASCII hyphen. -/
def hyphen : Byte := 0x2d#8

/-- `canon(u)`: the canonical 8-4-4-4-12 lower-case string (R61). -/
def canon (u : Value) : List Byte :=
  hexs (slice u 0 3) ++ [hyphen] ++ hexs (slice u 4 5) ++ [hyphen] ++ hexs (slice u 6 7)
    ++ [hyphen] ++ hexs (slice u 8 9) ++ [hyphen] ++ hexs (slice u 10 15)

/-- The nine ASCII bytes of `urn:uuid:` (R60, R65). -/
def urnLead : List Byte := [0x75#8, 0x72#8, 0x6e#8, 0x3a#8, 0x75#8, 0x75#8, 0x69#8, 0x64#8, 0x3a#8]

/-- The input without the lead `urn:uuid:`, stripped only where it stands exactly at byte 0 (R60). -/
def stripUrn (bs : List Byte) : List Byte :=
  if 9 ≤ bs.length ∧ bs.take 9 = urnLead then bs.drop 9 else bs

/-- `u[i] <- hexval(h[2i]) * 16 + hexval(h[2i+1])` (R60). -/
def packHex (h : List Byte) : Value :=
  Vector.ofFn fun i : Fin 16 =>
    BitVec.ofNat 8 (hexVal (h.getD (2 * i.val) 0) * 16 + hexVal (h.getD (2 * i.val + 1) 0))

/-- `normalise(IBUF, ILEN)`, its steps in R60's order; `none` is FAIL. -/
def normalise (ibuf : Buffer) (ilen : BitVec 7) : Option Value :=
  if Config.inMax < ilen.toNat then none
  else if ilen.toNat = 16 then some (Vector.ofFn fun i : Fin 16 => ibuf[i.val])
  else
    let h := (stripUrn (ibuf.toList.take ilen.toNat)).filter isHexDigit
    if h.length ≠ 32 then none else some (packHex h)

/-! ### Bit fields (42_bitfields.md) -/

/-- The version nibble `u[6][7:4]` (R70). -/
def versionOf (u : Value) : BitVec 4 := hiNibble u[6]

/-- `u[6] <- (imm << 4) | (u[6] & 0x0F)` (R67). -/
def withVersion (ver : BitVec 4) (u : Value) : Value :=
  u.set 6 ((ver.setWidth 8 <<< 4) ||| (u[6] &&& 0x0F#8))

/-- `u[8] <- 0x80 | (u[8] & 0x3F)` (R68). -/
def withRfcVariant (u : Value) : Value := u.set 8 (0x80#8 ||| (u[8] &&& 0x3F#8))

/-- The variant code of byte 8, by thresholds (R71; log entry 11). -/
def variantCode (b : Byte) : Nat :=
  if 0xE0 ≤ b.toNat then 3 else if 0xC0 ≤ b.toNat then 2 else if 0x80 ≤ b.toNat then 1 else 0

/-! ### Packed layouts (43_packers.md) -/

/-- `T = (R[t] + EPOCH_OFFSET) mod 2^64` (R72). -/
def gregorianTicks (unixTicks : Scalar) : Scalar := unixTicks + Config.epochOffset

/-- `P[4..7] ++ P[2..3] ++ P[0..1] ++ V[s][8..15]`, `P = bytes_be(T, 8)` (R73). -/
def layoutV1 (ticks : Scalar) (u : Value) : Value :=
  let p := bytesBe ticks.toNat 8
  #v[p[4], p[5], p[6], p[7], p[2], p[3], p[0], p[1],
     u[8], u[9], u[10], u[11], u[12], u[13], u[14], u[15]]

/-- `P[0..7] ++ V[s][8..15]`, `P = bytes_be(T, 8)` (R74). -/
def layoutV6 (ticks : Scalar) (u : Value) : Value :=
  let p := bytesBe ticks.toNat 8
  #v[p[0], p[1], p[2], p[3], p[4], p[5], p[6], p[7],
     u[8], u[9], u[10], u[11], u[12], u[13], u[14], u[15]]

/-- `bytes_be(R[t] mod 2^48, 6) ++ V[s][6..15]` (R75). -/
def layoutV7 (millis : Scalar) (u : Value) : Value :=
  let p := bytesBe (millis.toNat % 2 ^ 48) 6
  #v[p[0], p[1], p[2], p[3], p[4], p[5], u[6], u[7],
     u[8], u[9], u[10], u[11], u[12], u[13], u[14], u[15]]

/-- "if m == 1: u[10] <- u[10] | 0x01" (R73, R74). -/
def withMulticast (m : Bool) (u : Value) : Value := if m then u.set 10 (u[10] ||| 0x01#8) else u

/-! ### Time and node fields (44_accessors.md) -/

/-- The Gregorian ticks of a version 1 value (R77). -/
def ticksV1 (u : Value) : Scalar :=
  ((u[6] &&& 0x0F#8).setWidth 64 <<< 56) ||| (u[7].setWidth 64 <<< 48)
    ||| (BitVec.ofNat 64 (be u 4 2) <<< 32) ||| BitVec.ofNat 64 (be u 0 4)

/-- The Gregorian ticks of a version 6 value, the version nibble cleared (R77). -/
def ticksV6 (u : Value) : Scalar := BitVec.ofNat 64 (be u 0 8) &&& ~~~0x000000000000F000#64

/-- What the time extractor finds in a value (R77). -/
inductive TimeField where
  /-- Versions 1 and 6: Gregorian ticks of 100 ns. -/
  | ticks (gregorian : Scalar)
  /-- Version 7: Unix milliseconds. -/
  | millis (unix : Scalar)
  /-- Every other version: no timestamp. -/
  | absent
  deriving DecidableEq, Repr

/-- The time field of a value, by its version nibble (R77). -/
def timeField (u : Value) : TimeField :=
  if versionOf u = 1#4 then .ticks (ticksV1 u)
  else if versionOf u = 6#4 then .ticks (ticksV6 u)
  else if versionOf u = 7#4 then .millis (BitVec.ofNat 64 (be u 0 6))
  else .absent

/-- Versions 1 and 6 have a node (R78, R79). -/
def hasNode (u : Value) : Bool := versionOf u == 1#4 || versionOf u == 6#4

/-! ### Byte permutations (45_byteorder.md) -/

/-- `swap(u)`, between the RFC layout and the foreign layout (R81). -/
def swapFields (u : Value) : Value :=
  #v[u[3], u[2], u[1], u[0], u[5], u[4], u[7], u[6],
     u[8], u[9], u[10], u[11], u[12], u[13], u[14], u[15]]

/-- The clustering order, time-high, time-mid, time-low (R85). -/
def clusterOrder (u : Value) : Value :=
  #v[u[6], u[7], u[4], u[5], u[0], u[1], u[2], u[3],
     u[8], u[9], u[10], u[11], u[12], u[13], u[14], u[15]]

/-- A predicate's result: 1 or 0, zero-extended (46_nil_validate.md; R88-R91). -/
def boolScalar (b : Bool) : Scalar := if b then 1#64 else 0#64

/-! ### Byte lanes of the host port (20_memory.md R38, R39) -/

/-- Byte `j` of a host word is in bits `8j+7 : 8j` (R38). -/
def lane (w : Word) (j : Nat) : Byte := w.extractLsb' (8 * j) 8

/-- The word that carries bytes `4k .. 4k+3`: `b[4k] | b[4k+1] << 8 | …` (R38). -/
def lanesOf {n : Nat} (bs : Vector Byte n) (k : Nat) (h : 4 * k + 3 < n) : Word :=
  bs[4 * k].setWidth 32 ||| (bs[4 * k + 1].setWidth 32 <<< 8)
    ||| (bs[4 * k + 2].setWidth 32 <<< 16) ||| (bs[4 * k + 3].setWidth 32 <<< 24)

/-- "A write of word `w` … sets byte `4k + j` to `w[8j+7 : 8j]` for j = 0..3" (R38). -/
def putLanes {n : Nat} (bs : Vector Byte n) (k : Nat) (w : Word) : Vector Byte n :=
  Vector.ofFn fun i => if i.val / 4 = k then lane w (i.val % 4) else bs[i.val]

/-- `R[n][63:32]` or `R[n][31:0]` (R39). -/
def scalarHalf (x : Scalar) (high : Bool) : Word :=
  if high then x.extractLsb' 32 32 else x.extractLsb' 0 32

/-- "A write to either word replaces those 32 bits and keeps the other 32" (R39). -/
def putHalf (x : Scalar) (high : Bool) (w : Word) : Scalar :=
  if high then (w.setWidth 64 <<< 32) ||| (x &&& 0x00000000FFFFFFFF#64)
  else (x &&& 0xFFFFFFFF00000000#64) ||| w.setWidth 64

end Sys2Proof.Machine
end

