-- ==== Sys2Proof/Machine/Flags.lean ====
section
/-! DEFINITION. The status register and its flags (10_state.md R19-R23), and what the time and node
extractors do to them (44_accessors.md R77-R79). -/

namespace Sys2Proof.Machine

/-- The code of an error (60_exceptions.md R94). -/
def ErrorCode.code : ErrorCode → BitVec 4
  | .noError => 0
  | .invalidLength => 1
  | .unsupportedVersion => 2
  | .missingName => 3
  | .missingNamespace => 4
  | .invalidForeignFormat => 5
  | .illegalCommand => 6

/-- `STATUS.BUSY`: 1 exactly while a command is in flight (R21, R30). -/
def State.busy (s : State) : Bool := s.inflight.isSome

/-- The `STATUS` word: NV 11, TU 10, TN 9, TV 8, ERR 7:4, STICKY 1, BUSY 0, every other bit 0
(R19). -/
def statusWord (s : State) : Word :=
  (BitVec.ofBool s.busy).setWidth 32 ||| ((BitVec.ofBool s.sticky).setWidth 32 <<< 1)
    ||| (s.err.code.setWidth 32 <<< 4) ||| ((BitVec.ofBool s.tv).setWidth 32 <<< 8)
    ||| ((BitVec.ofBool s.tn).setWidth 32 <<< 9) ||| ((BitVec.ofBool s.tu).setWidth 32 <<< 10)
    ||| ((BitVec.ofBool s.nv).setWidth 32 <<< 11)

/-- The value `GETTIME` returns for a time field: ticks less the epoch offset modulo 2^64,
milliseconds as they are, 0 for no timestamp (R77). -/
def TimeField.value : TimeField → Scalar
  | .ticks gregorian => gregorian - Config.epochOffset
  | .millis unix => unix
  | .absent => 0#64

/-- `TV`: a timestamp was found (R77). -/
def TimeField.valid : TimeField → Bool
  | .ticks _ | .millis _ => true
  | .absent => false

/-- `TN`: the tick count is below the epoch offset, so the value is negative (R77). -/
def TimeField.negative : TimeField → Bool
  | .ticks gregorian => gregorian.ult Config.epochOffset
  | .millis _ | .absent => false

/-- `TU`: 1 for milliseconds, 0 for ticks (R77). -/
def TimeField.unitMillis : TimeField → Bool
  | .millis _ => true
  | .ticks _ | .absent => false

/-- `GETTIME` writes TV, TN and TU, always all three (R77). -/
def State.setTimeFlags (s : State) (f : TimeField) : State :=
  { s with tv := f.valid, tn := f.negative, tu := f.unitMillis }

/-- `GETNODE` and `NODEHEX` write NV (R78, R79). -/
def State.setNodeFlag (s : State) (b : Bool) : State := { s with nv := b }

/-- "The exact signed result is `R[d] - 2^64` when `TN = 1`, and `R[d]` when `TN = 0`" (R77, R80). -/
def exactTime (x : Scalar) (tn : Bool) : Int := (x.toNat : Int) - if tn then 2 ^ 64 else 0

end Sys2Proof.Machine
end

