-- ==== Sys2Proof/Machine/Ops.lean ====
section
/-! DEFINITION. The named operations over the registers and buffers, how a command completes with
or without an error (30_encoding.md R55; 60_exceptions.md R96), the in-flight command
(10_state.md R30), and reset (70_reset_and_hazards.md R111). -/

namespace Sys2Proof.Machine

/-- `V[n]` (00_scope.md R11). -/
def State.getV (s : State) (n : VReg) : Value := s.v[n.val]

/-- `V[n] <- u` (R11). -/
def State.setV (s : State) (n : VReg) (u : Value) : State := { s with v := s.v.set n.val u }

/-- `R[n]` (R11). -/
def State.getR (s : State) (n : RReg) : Scalar := s.r[n.val]

/-- `R[n] <- x` (R11). -/
def State.setR (s : State) (n : RReg) (x : Scalar) : State := { s with r := s.r.set n.val x }

/-- A buffer with the given bytes first and 0 in the rest (10_state.md R29). -/
def paddedBuffer (bs : List Byte) : Buffer := Vector.ofFn fun i : Fin 64 => bs.getD i.val 0#8

/-- A command's output: "Each command that writes it writes all 64 bytes: its output in
`0 .. OLEN-1` and 0 in the rest" (R26, R29). -/
def State.setOut (s : State) (bs : List Byte) : State :=
  { s with obuf := paddedBuffer bs, olen := BitVec.ofNat 7 bs.length }

/-- `STATUS.STICKY <- b` (R22). -/
def State.setSticky (s : State) (b : Bool) : State := { s with sticky := b }

/-- The input buffer as a 16-byte operand (41_codec.md R60). -/
def State.input (s : State) : Option Value := normalise s.ibuf s.ilen

/-- `ILEN <- n`, by the host only (R25). -/
def State.setIlen (s : State) (n : BitVec 7) : State := { s with ilen := n }

/-- `IBUF` written, by the host only (R28). -/
def State.setIbuf (s : State) (b : Buffer) : State := { s with ibuf := b }

/-! ### Completion of a command -/

/-- The end of every command: `STATUS.ERR` written, `STATUS.BUSY <- 0`, and the in-flight command
"ceases to exist" (R30, R55). -/
def State.finish (s : State) (e : ErrorCode) : State := { s with err := e, inflight := none }

/-- Success: the command's writes take effect and `STATUS.ERR <- 0`; STICKY is left (R22, R55). -/
def succeed (s : State) : Result := .next (s.finish .noError)

/-- `raise E`, the one operation that takes an error: `STATUS.ERR <- code(E)`,
`STATUS.STICKY <- 1`, `STATUS.BUSY <- 0` "and no other change" (60_exceptions.md R96). There are no
traps and so no return from one (R100, R101). -/
def raise (e : ErrorCode) (s : State) : Result := .next ((s.setSticky true).finish e)

/-! ### The in-flight command -/

/-- The command word the engine runs next (R30). -/
def fetch (s : State) : Option Word := s.inflight

/-- "A host write of `w` to `CMD` sets `STATUS.BUSY <- 1`" (R55): `w` is now in flight. -/
def State.issue (s : State) (w : Word) : State := { s with inflight := some w }

/-- `w` in flight with nothing before it: no host input is pending that a step would take before
the command completes (log entry 4). -/
def State.loadCommand (s : State) (w : Word) : State := { s with inflight := some w, pending := [] }

/-! ### The host interface -/

/-- The host's inputs that remain. -/
def State.setPending (s : State) (p : List HostInput) : State := { s with pending := p }

/-- One access acknowledged (20_memory.md R33). -/
def State.reply (s : State) (x : Reply) : State := { s with replies := s.replies ++ [x] }

/-- One free choice of R120 taken. -/
def State.countBusyRead (s : State) : State := { s with busyReads := s.busyReads + 1 }

/-- Reset: every item of the block's state takes its reset value (R111). What the host has still
to present and what it has seen are the host's, and stay (log entry 8). -/
def State.resetBlock (s : State) : State :=
  { State.reset with pending := s.pending, replies := s.replies, busyReads := s.busyReads }

end Sys2Proof.Machine
end

