-- ==== Sys2Proof/Machine/Accessors.lean ====
section
/-! DEFINITION. The field extractors GETTIME, GETNODE, NODEHEX (44_accessors.md R77-R79). -/

namespace Sys2Proof.Machine

/-- `GETTIME Rd, Vs` (R77). -/
def execGettime (d : RReg) (src : VReg) (s : State) : Result :=
  succeed ((s.setR d (timeField (s.getV src)).value).setTimeFlags (timeField (s.getV src)))

/-- `GETNODE Rd, Vs` (R78). -/
def execGetnode (d : RReg) (src : VReg) (s : State) : Result :=
  let u := s.getV src
  succeed ((s.setR d (if hasNode u then BitVec.ofNat 64 (be u 10 6) else 0#64)).setNodeFlag (hasNode u))

/-- `NODEHEX Vs` (R79). -/
def execNodehex (src : VReg) (s : State) : Result :=
  let u := s.getV src
  succeed ((s.setOut (if hasNode u then hexs (slice u 10 15) else [])).setNodeFlag (hasNode u))

end Sys2Proof.Machine
end

