-- ==== Sys2Proof/Machine/BitFields.lean ====
section
/-! DEFINITION. The bit field commands SETVER, SETVAR, STAMP, GETVER, GETVAR (42_bitfields.md
R67-R71). -/

namespace Sys2Proof.Machine

/-- `SETVER Vd, Vs, #v` (R67). -/
def execSetver (d src : VReg) (imm : BitVec 4) (s : State) : Result :=
  if imm.toNat < 1 ∨ 8 < imm.toNat then raise .unsupportedVersion s
  else succeed (s.setV d (withVersion imm (s.getV src)))

/-- `SETVAR Vd, Vs` (R68). -/
def execSetvar (d src : VReg) (s : State) : Result :=
  succeed (s.setV d (withRfcVariant (s.getV src)))

/-- `STAMP Vd, Vs, #v` (R69). -/
def execStamp (d src : VReg) (imm : BitVec 4) (s : State) : Result :=
  if imm.toNat ∈ [1, 3, 4, 5, 6, 7, 8] then
    succeed (s.setV d (withRfcVariant (withVersion imm (s.getV src))))
  else raise .unsupportedVersion s

/-- `GETVER Rd, Vs` (R70). -/
def execGetver (d : RReg) (src : VReg) (s : State) : Result :=
  succeed (s.setR d ((versionOf (s.getV src)).setWidth 64))

/-- `GETVAR Rd, Vs` (R71). -/
def execGetvar (d : RReg) (src : VReg) (s : State) : Result :=
  succeed (s.setR d (BitVec.ofNat 64 (variantCode (s.getV src)[8])))

end Sys2Proof.Machine
end

