-- ==== Sys2Proof/Machine/ByteOrder.lean ====
section
/-! DEFINITION. The byte order commands TOFOR, FROMFOR, FORIN, ORDER (45_byteorder.md R81-R85). -/

namespace Sys2Proof.Machine

/-- `TOFOR Vd, Vs` (R82). -/
def execTofor (d src : VReg) (s : State) : Result := succeed (s.setV d (swapFields (s.getV src)))

/-- `FROMFOR Vd, Vs` (R83). -/
def execFromfor (d src : VReg) (s : State) : Result := succeed (s.setV d (swapFields (s.getV src)))

/-- `FORIN Vd` (R84). -/
def execForin (d : VReg) (s : State) : Result :=
  match s.input with
  | none => raise .invalidForeignFormat s
  | some f => succeed (s.setV d (swapFields f))

/-- `ORDER Vd, Vs` (R85). -/
def execOrder (d src : VReg) (s : State) : Result := succeed (s.setV d (clusterOrder (s.getV src)))

end Sys2Proof.Machine
end

