-- ==== Sys2Proof/Machine/Codec.lean ====
section
/-! DEFINITION. The codec commands PARSE, FMT, HEX, URN, RAW (41_codec.md R62-R66). -/

namespace Sys2Proof.Machine

/-- `PARSE Vd` (R62). -/
def execParse (d : VReg) (s : State) : Result :=
  match s.input with
  | none => raise .invalidLength s
  | some u => succeed (s.setV d u)

/-- `FMT Vs` (R63). -/
def execFmt (src : VReg) (s : State) : Result := succeed (s.setOut (canon (s.getV src)))

/-- `HEX Vs` (R64). -/
def execHex (src : VReg) (s : State) : Result := succeed (s.setOut (hexs (slice (s.getV src) 0 15)))

/-- `URN Vs` (R65). -/
def execUrn (src : VReg) (s : State) : Result :=
  succeed (s.setOut (urnLead ++ canon (s.getV src)))

/-- `RAW Vs` (R66). -/
def execRaw (src : VReg) (s : State) : Result := succeed (s.setOut (s.getV src).toList)

end Sys2Proof.Machine
end

