-- ==== Sys2Proof/Machine/Housekeeping.lean ====
section
/-! DEFINITION. The housekeeping commands MOVV, CLRERR (47_housekeeping.md R92, R93). -/

namespace Sys2Proof.Machine

/-- `MOVV Vd, Vs` (R92). -/
def execMovv (d src : VReg) (s : State) : Result := succeed (s.setV d (s.getV src))

/-- `CLRERR` (R93). -/
def execClrerr (s : State) : Result := succeed (s.setSticky false)

end Sys2Proof.Machine
end

