-- ==== Sys2Proof/Machine/NilValidate.lean ====
section
/-! DEFINITION. The commands NIL, ISNIL, ISNILIN, VALID, CMP (46_nil_validate.md R87-R91). -/

namespace Sys2Proof.Machine

/-- `NIL Vd` (R87). -/
def execNil (d : VReg) (s : State) : Result := succeed (s.setV d nilValue)

/-- `ISNIL Rd, Vs` (R88). -/
def execIsnil (d : RReg) (src : VReg) (s : State) : Result :=
  succeed (s.setR d (boolScalar (s.getV src == nilValue)))

/-- `ISNILIN Rd` (R89). -/
def execIsnilin (d : RReg) (s : State) : Result :=
  succeed (s.setR d (boolScalar (s.input == some nilValue)))

/-- `VALID Rd` (R90). -/
def execValid (d : RReg) (s : State) : Result := succeed (s.setR d (boolScalar s.input.isSome))

/-- `CMP Rd, Vs, Vt` (R91). -/
def execCmp (d : RReg) (src t : VReg) (s : State) : Result :=
  succeed (s.setR d (boolScalar (s.getV src == s.getV t)))

end Sys2Proof.Machine
end

