-- ==== Sys2Proof/Machine/Packers.lean ====
section
/-! DEFINITION. The packers PACKV1, PACKV6, PACKV7 (43_packers.md R72-R75). -/

namespace Sys2Proof.Machine

/-- `PACKV1 Vd, Vs, Rt[, m]` (R73). -/
def execPackv1 (d src : VReg) (t : RReg) (m : Bool) (s : State) : Result :=
  succeed (s.setV d (withMulticast m (layoutV1 (gregorianTicks (s.getR t)) (s.getV src))))

/-- `PACKV6 Vd, Vs, Rt[, m]` (R74). -/
def execPackv6 (d src : VReg) (t : RReg) (m : Bool) (s : State) : Result :=
  succeed (s.setV d (withMulticast m (layoutV6 (gregorianTicks (s.getR t)) (s.getV src))))

/-- `PACKV7 Vd, Vs, Rt` (R75). -/
def execPackv7 (d src : VReg) (t : RReg) (s : State) : Result :=
  succeed (s.setV d (layoutV7 (s.getR t) (s.getV src)))

end Sys2Proof.Machine
end

