-- ==== Sys2Proof/Machine/Dispatch.lean ====
section
/-! DEFINITION. One arm per command, each one direct call of its meaning (30_encoding.md R53, R55). -/

namespace Sys2Proof.Machine

/-- What a decoded command does (R55): its row's rule, run on the state as it stands. -/
def exec (i : Instr) (s : State) : Host.Outcome State Fault Refusal :=
  match i with
  | .parse d => Sys2Proof.Machine.execParse d s
  | .fmt src => Sys2Proof.Machine.execFmt src s
  | .hex src => Sys2Proof.Machine.execHex src s
  | .urn src => Sys2Proof.Machine.execUrn src s
  | .raw src => Sys2Proof.Machine.execRaw src s
  | .setver d src imm => Sys2Proof.Machine.execSetver d src imm s
  | .setvar d src => Sys2Proof.Machine.execSetvar d src s
  | .stamp d src imm => Sys2Proof.Machine.execStamp d src imm s
  | .getver d src => Sys2Proof.Machine.execGetver d src s
  | .getvar d src => Sys2Proof.Machine.execGetvar d src s
  | .packv1 d src t m => Sys2Proof.Machine.execPackv1 d src t m s
  | .packv6 d src t m => Sys2Proof.Machine.execPackv6 d src t m s
  | .packv7 d src t => Sys2Proof.Machine.execPackv7 d src t s
  | .gettime d src => Sys2Proof.Machine.execGettime d src s
  | .getnode d src => Sys2Proof.Machine.execGetnode d src s
  | .nodehex src => Sys2Proof.Machine.execNodehex src s
  | .tofor d src => Sys2Proof.Machine.execTofor d src s
  | .fromfor d src => Sys2Proof.Machine.execFromfor d src s
  | .forin d => Sys2Proof.Machine.execForin d s
  | .order d src => Sys2Proof.Machine.execOrder d src s
  | .nil d => Sys2Proof.Machine.execNil d s
  | .isnil d src => Sys2Proof.Machine.execIsnil d src s
  | .isnilin d => Sys2Proof.Machine.execIsnilin d s
  | .valid d => Sys2Proof.Machine.execValid d s
  | .cmp d src t => Sys2Proof.Machine.execCmp d src t s
  | .movv d src => Sys2Proof.Machine.execMovv d src s
  | .clrerr => Sys2Proof.Machine.execClrerr s

end Sys2Proof.Machine
end

