-- ==== Sys2Proof/Machine/HostPort.lean ====
section
/-! DEFINITION. The host port: the register map (20_memory.md R35), which accesses are legal
(R37), what reads and writes do (R36, R38, R39, R40), and the platform's decoding of `UCB_BASE`
(R32). -/

namespace Sys2Proof.Machine

/-- What stands at an aligned offset of the window (R35). -/
inductive Region where
  | cmd
  | status
  | ilen
  | olen
  | id
  /-- Half of scalar register `n`: bits 63:32 if `high`, else bits 31:0. -/
  | scalarWord (n : Fin 8) (high : Bool)
  /-- Bytes `4k .. 4k+3` of value register `n`. -/
  | valueWord (n : Fin 8) (k : Fin 4)
  /-- Bytes `4k .. 4k+3` of `IBUF`. -/
  | ibufWord (k : Fin 16)
  /-- Bytes `4k .. 4k+3` of `OBUF`. -/
  | obufWord (k : Fin 16)
  | reserved
  deriving DecidableEq, Repr

/-- The register map (R35). -/
def regionOf (addr : BitVec 9) : Region :=
  let a := addr.toNat
  if a = 0x000 then .cmd
  else if a = 0x004 then .status
  else if a = 0x008 then .ilen
  else if a = 0x00C then .olen
  else if a = 0x010 then .id
  else if a < 0x040 then .reserved
  else if a < 0x080 then .scalarWord (Fin.ofNat 8 ((a - 0x040) / 8)) (4 ≤ (a - 0x040) % 8)
  else if a < 0x100 then .valueWord (Fin.ofNat 8 ((a - 0x080) / 16)) (Fin.ofNat 4 ((a - 0x080) % 16 / 4))
  else if a < 0x140 then .ibufWord (Fin.ofNat 16 ((a - 0x100) / 4))
  else if a < 0x180 then .obufWord (Fin.ofNat 16 ((a - 0x140) / 4))
  else .reserved

/-- "The only legal access is a naturally aligned 32-bit access: `size = 2` and
`addr[1:0] = 0`" (R37). -/
def Access.legal (a : Access) : Bool := a.size == 2#2 && a.addr.extractLsb' 0 2 == 0#2

/-- An aligned 32-bit read of a region (R36, R40). -/
def readRegion (s : State) : Region → Word
  | .cmd => 0#32
  | .status => statusWord s
  | .ilen => s.ilen.setWidth 32
  | .olen => s.olen.setWidth 32
  | .id => Config.idWord
  | .scalarWord n high => scalarHalf (s.getR n) high
  | .valueWord n k => lanesOf (s.getV n) k.val (by omega)
  | .ibufWord k => lanesOf s.ibuf k.val (by omega)
  | .obufWord k => lanesOf s.obuf k.val (by omega)
  | .reserved => 0#32

/-- An aligned 32-bit write to a region: `CMD` issues a command; read-only and reserved offsets
ignore it (R36, R40). -/
def writeRegion (s : State) (w : Word) : Region → State
  | .cmd => s.issue w
  | .ilen => s.setIlen (w.extractLsb' 0 7)
  | .scalarWord n high => s.setR n (putHalf (s.getR n) high w)
  | .valueWord n k => s.setV n (putLanes (s.getV n) k.val w)
  | .ibufWord k => s.setIbuf (putLanes s.ibuf k.val w)
  | .status | .olen | .id | .obufWord _ | .reserved => s

/-- `MemRead(UCB_BASE + addr, 4)`'s value (R40). -/
def readWindow (s : State) (addr : BitVec 9) : Word := readRegion s (regionOf addr)

/-- `MemWrite(UCB_BASE + addr, 4, w)`'s effect (R40). -/
def writeWindow (s : State) (addr : BitVec 9) (w : Word) : State := writeRegion s w (regionOf addr)

/-- An access that does not wait, or no longer: its effect and its answer. An access that is not
an aligned 32-bit one "is acknowledged with `err = 1`, reads `rdata = 0`, and changes no state"
(R37, R40). -/
def performAccess (a : Access) (s : State) : State :=
  if a.legal then
    if a.we then (writeWindow s a.addr a.wdata).reply .written
    else s.reply (.data (readWindow s a.addr))
  else s.reply .busError

/-- A legal read of `STATUS`, the one access that never waits (R44). -/
def Access.isStatusRead (a : Access) : Bool := a.legal && !a.we && regionOf a.addr == .status

/-- The offset the platform presents for a platform address, if the address lies in the block's
window (R32, R34). -/
def windowOffset (a : Nat) : Option (BitVec 9) :=
  if Config.ucbBase ≤ a ∧ a < Config.ucbBase + 0x200 then
    some (BitVec.ofNat 9 (a - Config.ucbBase))
  else none

/-- `MemRead(a, 4)` as the host presents it to the block, if the address is the block's
(00_scope.md R11; R33). -/
def memRead (a : Nat) : Option Access :=
  (windowOffset a).map fun off => { we := false, addr := off, size := 2#2, wdata := 0#32 }

/-- `MemWrite(a, 4, w)` as the host presents it to the block, if the address is the block's
(R11, R33). -/
def memWrite (a : Nat) (w : Word) : Option Access :=
  (windowOffset a).map fun off => { we := true, addr := off, size := 2#2, wdata := w }

end Sys2Proof.Machine
end

