-- ==== Sys2Proof/Machine/Engine.lean ====
section
/-! DEFINITION. The two agents' moves: the command engine's completion of the in-flight command
(30_encoding.md R55) and the host's accesses and resets, with the interlock (20_memory.md R44;
70_reset_and_hazards.md R111, R120). -/

namespace Sys2Proof.Machine

/-- Completion of the command word `w` (R55): an illegal word raises ILLEGAL_COMMAND "and nothing
else happens" (R54); any other runs its row's rule. -/
def completeCommand (w : Word) (s : State) : Result :=
  match decode w with
  | .legal i => exec i s
  | .illegal _ => raise .illegalCommand s

/-- A move while `w` is in flight. A reset abandons the command (R111). A `STATUS` read "is
acknowledged at once with the current `STATUS`" (R44) if the free choice has it arrive before the
command completes (R120); every other access waits, and the command completes. -/
def busyStep (w : Word) (s : State) : Result :=
  match s.pending with
  | .reset _ :: rest => .next (s.resetBlock.setPending rest)
  | .access a :: rest =>
    if a.isStatusRead then
      if Config.statusReadSeesBusy s.busyReads then
        .next ((performAccess a (s.setPending rest)).countBusyRead)
      else completeCommand w s.countBusyRead
    else completeCommand w s
  | [] => completeCommand w s

/-- A move with no command in flight: the host's next input, if any. "A block at rest changes no
state by itself" (10_state.md R13). -/
def restStep (s : State) : Result :=
  match s.pending with
  | .reset _ :: rest => .next (s.resetBlock.setPending rest)
  | .access a :: rest => .next (performAccess a (s.setPending rest))
  | [] => .next s

end Sys2Proof.Machine
end

