-- ==== Sys2Proof/Machine/Step.lean ====
section
/-! DEFINITION. One step of the machine: one event, of the engine or of the host. -/

namespace Sys2Proof.Machine

/-- One step: with a command in flight the busy move, else the move at rest (R44, R55). -/
def step (s : State) : Host.Outcome State Fault Refusal :=
  match fetch s with
  | some w => busyStep w s
  | none => restStep s

/-- `s` with the table row's word in flight, so that the very next step runs it (log entry 4). The
block fetches nothing (R48): a command word exists only as the data of a `CMD` write. -/
def State.withFetchWord (s : State) (nbits w : Nat) : State :=
  s.loadCommand (BitVec.ofNat 32 (w % 2 ^ nbits))

end Sys2Proof.Machine
end

