-- ==== Sys2Proof/Assembler.lean ====
section
/-! DEFINITION. The assembler's side of the command set: the text of a command (30_encoding.md
R58) and the pseudo-instructions (R59). The block sees only command words. -/

namespace Sys2Proof

/-- `Vn` (R58). -/
def vName (n : VReg) : String := "V" ++ toString n.val
/-- `Rn` (R58). -/
def rName (n : RReg) : String := "R" ++ toString n.val
/-- `#n`, a decimal immediate (R58). -/
def immText (n : BitVec 4) : String := "#" ++ toString n.toNat
/-- "`m` is written as the bare letter when the modifier bit is 1 and omitted when it is 0" (R58). -/
def modText (m : Bool) : String := if m then ", m" else ""

/-- The text of a command: mnemonic, then the operands in field order (R58). -/
def Instr.text : Instr → String
  | .parse d => "PARSE " ++ vName d
  | .fmt src => "FMT " ++ vName src
  | .hex src => "HEX " ++ vName src
  | .urn src => "URN " ++ vName src
  | .raw src => "RAW " ++ vName src
  | .setver d src imm => "SETVER " ++ vName d ++ ", " ++ vName src ++ ", " ++ immText imm
  | .setvar d src => "SETVAR " ++ vName d ++ ", " ++ vName src
  | .stamp d src imm => "STAMP " ++ vName d ++ ", " ++ vName src ++ ", " ++ immText imm
  | .getver d src => "GETVER " ++ rName d ++ ", " ++ vName src
  | .getvar d src => "GETVAR " ++ rName d ++ ", " ++ vName src
  | .packv1 d src t m => "PACKV1 " ++ vName d ++ ", " ++ vName src ++ ", " ++ rName t ++ modText m
  | .packv6 d src t m => "PACKV6 " ++ vName d ++ ", " ++ vName src ++ ", " ++ rName t ++ modText m
  | .packv7 d src t => "PACKV7 " ++ vName d ++ ", " ++ vName src ++ ", " ++ rName t
  | .gettime d src => "GETTIME " ++ rName d ++ ", " ++ vName src
  | .getnode d src => "GETNODE " ++ rName d ++ ", " ++ vName src
  | .nodehex src => "NODEHEX " ++ vName src
  | .tofor d src => "TOFOR " ++ vName d ++ ", " ++ vName src
  | .fromfor d src => "FROMFOR " ++ vName d ++ ", " ++ vName src
  | .forin d => "FORIN " ++ vName d
  | .order d src => "ORDER " ++ vName d ++ ", " ++ vName src
  | .nil d => "NIL " ++ vName d
  | .isnil d src => "ISNIL " ++ rName d ++ ", " ++ vName src
  | .isnilin d => "ISNILIN " ++ rName d
  | .valid d => "VALID " ++ rName d
  | .cmp d src t => "CMP " ++ rName d ++ ", " ++ vName src ++ ", " ++ vName t
  | .movv d src => "MOVV " ++ vName d ++ ", " ++ vName src
  | .clrerr => "CLRERR"

/-- The pseudo-instructions (R59). -/
inductive Pseudo where
  | mint1 (d src : VReg) (t : RReg) (m : Bool)
  | mint6 (d src : VReg) (t : RReg) (m : Bool)
  | mint7 (d src : VReg) (t : RReg)
  | mintraw (d src : VReg) (version : BitVec 4)
  | for2canon (d : VReg)
  | canon2for (d src : VReg)
  deriving DecidableEq, Repr

/-- `MINTRAW` takes a version "in 3, 4, 5, 8" (R59); the others have no condition. -/
def Pseudo.wf : Pseudo → Bool
  | .mintraw _ _ version => version ∈ [3#4, 4#4, 5#4, 8#4]
  | .mint1 _ _ _ _ | .mint6 _ _ _ _ | .mint7 _ _ _ | .for2canon _ | .canon2for _ _ => true

/-- The commands a pseudo-instruction expands to, issued in order (R59). -/
def Pseudo.expand : Pseudo → List Instr
  | .mint1 d src t m => [.packv1 d src t m, .stamp d d 1#4]
  | .mint6 d src t m => [.packv6 d src t m, .stamp d d 6#4]
  | .mint7 d src t => [.packv7 d src t, .stamp d d 7#4]
  | .mintraw d src version => [.stamp d src version]
  | .for2canon d => [.forin d, .fmt d]
  | .canon2for d src => [.parse src, .tofor d src, .fmt d]

end Sys2Proof
end

