-- ==== Sys2Proof/Safety.lean ====
section
/-! DEFINITION. The terms claims are stated in: what a safe run is, the invariant of the state, what
a command may write, and the atomic machine that runs each command at its `CMD` write
(30_encoding.md R55; 70_reset_and_hazards.md R115). -/

namespace Sys2Proof.Machine

/-- A safe run: `k` steps from `s` all answer a next state. -/
def SafeRun (k : Nat) (s : State) : Prop := ∃ t, Host.Core.run Sys2Proof.core k s = .next t

/-! ### The invariant -/

/-- "Legal values are 0, 1, 2, 5 and 6" (10_state.md R23). -/
abbrev State.ErrLegal (s : State) : Prop := s.err.code.toNat ∈ [0, 1, 2, 5, 6]

/-- A held error code means that STICKY has been set and not cleared since (R22, R55, R93). -/
abbrev State.ErrMeansSticky (s : State) : Prop := s.err ≠ .noError → s.sticky = true

/-- OLEN is one of the lengths commands write, or 0 (R26), and every byte of OBUF at or above it
is 0 (R29). -/
abbrev State.OutPadded (s : State) : Prop :=
  s.olen.toNat ∈ [0, 12, 16, 32, 36, 45] ∧
    ∀ k : Fin 64, s.olen.toNat ≤ k.val → s.obuf[k.val] = 0#8

/-- Without a timestamp TN and TU are 0, and a millisecond time is not negative (44_accessors.md
R77). -/
abbrev State.TimeFlagsAgree (s : State) : Prop :=
  (s.tv = false → s.tn = false ∧ s.tu = false) ∧ (s.tu = true → s.tn = false)

/-- The invariant of the block's state. -/
abbrev State.Inv (s : State) : Prop :=
  s.ErrLegal ∧ s.ErrMeansSticky ∧ s.OutPadded ∧ s.TimeFlagsAgree

/-! ### What a command may write -/

/-- The regions of the window whose contents a command may change (R53's `d` column, and OBUF and
OLEN for the commands of R26). -/
def mayWrite (i : Instr) (x : Region) : Bool :=
  match i with
  | .parse d | .setver d _ _ | .setvar d _ | .stamp d _ _ | .packv1 d _ _ _ | .packv6 d _ _ _
  | .packv7 d _ _ | .tofor d _ | .fromfor d _ | .forin d | .order d _ | .nil d | .movv d _ =>
    match x with
    | .valueWord n _ => n == d
    | .status => true
    | _ => false
  | .getver d _ | .getvar d _ | .gettime d _ | .getnode d _ | .isnil d _ | .isnilin d | .valid d
  | .cmp d _ _ =>
    match x with
    | .scalarWord n _ => n == d
    | .status => true
    | _ => false
  | .fmt _ | .hex _ | .urn _ | .raw _ | .nodehex _ =>
    match x with
    | .obufWord _ | .olen | .status => true
    | _ => false
  | .clrerr =>
    match x with
    | .status => true
    | _ => false

/-! ### The atomic machine -/

/-- One host input with its command, if it issues one, run at once: "A model may merge issue and
completion into one step at the `CMD` write" (30_encoding.md R55). -/
def atomicStep (s : State) : Result :=
  match restStep s with
  | .next t =>
    match t.inflight with
    | some w => completeCommand w t
    | none => .next t
  | .fault x => .fault x
  | .refused x => .refused x

/-- `n` inputs of the atomic machine. -/
def atomicRun : Nat → State → Result
  | 0, s => .next s
  | n + 1, s =>
    match atomicStep s with
    | .next t => atomicRun n t
    | .fault x => .fault x
    | .refused x => .refused x

/-- The access is no `STATUS` read, the one access that can see a command in flight (20_memory.md
R44). -/
def HostInput.seesNoBusy : HostInput → Bool
  | .access a => !a.isStatusRead
  | .reset _ => true

end Sys2Proof.Machine
end

