-- ==== Sys2Proof/Certificates/Slice0/Obligations.lean ====
section
/-! DEFINITION. The statements for the provers, each a numbered rule of spec/ or derived from
several. They are written over the fields of State and over bytes and integers spelled out here,
not over the functions the meanings call, wherever the spec gives the result in bytes. -/

open Sys2Proof Sys2Proof.Machine

namespace Sys2Proof.Claims

/-- A command that succeeded: the state with its writes, `STATUS.ERR = 0`, not busy (R55). -/
def done (t : State) : State := { t with err := .noError, inflight := none }

/-- A command that failed: `STATUS.ERR`, `STATUS.STICKY` and BUSY, and nothing else (R96). -/
def failed (e : ErrorCode) (s : State) : State :=
  { s with err := e, sticky := true, inflight := none }

/-- The unsigned integer of bytes, most significant first, as R11's sum. -/
def sumBe : List Byte → Nat
  | [] => 0
  | b :: bs => b.toNat * 256 ^ bs.length + sumBe bs

/-- The lower-case hex digits, `0123456789abcdef` (R11). -/
def asciiHex (n : Nat) : Byte :=
  ([0x30#8, 0x31#8, 0x32#8, 0x33#8, 0x34#8, 0x35#8, 0x36#8, 0x37#8, 0x38#8, 0x39#8,
    0x61#8, 0x62#8, 0x63#8, 0x64#8, 0x65#8, 0x66#8] : List Byte).getD n 0#8

/-- Byte `k` of a buffer, 0 past its end. -/
def byteAt (bs : Buffer) (k : Nat) : Byte := bs.toList.getD k 0#8

/-- Where the two digits of byte `i` stand in the 8-4-4-4-12 string (R61). -/
def digitAt (i : Nat) : Nat :=
  2 * i + (if i < 4 then 0 else if i < 6 then 1 else if i < 8 then 2 else if i < 10 then 3 else 4)

/-- The canonical string of `u` stands in `bs` from byte `off` on (R61). -/
def CanonFrom (bs : Buffer) (off : Nat) (u : Value) : Prop :=
  (∀ i : Fin 16, byteAt bs (off + digitAt i.val) = asciiHex (u[i].toNat / 16) ∧
    byteAt bs (off + digitAt i.val + 1) = asciiHex (u[i].toNat % 16)) ∧
  ∀ h ∈ [8, 13, 18, 23], byteAt bs (off + h) = 0x2d#8

/-- The two digits of each of the listed bytes stand in `bs` from byte 0 on. -/
def HexFrom (bs : Buffer) (u : List Byte) : Prop :=
  ∀ i : Fin u.length, byteAt bs (2 * i.val) = asciiHex (u[i].toNat / 16) ∧
    byteAt bs (2 * i.val + 1) = asciiHex (u[i].toNat % 16)

/-- Every byte of `bs` from `k` on is 0 (R29). -/
def ZeroFrom (bs : Buffer) (k : Nat) : Prop := ∀ j : Fin 64, k ≤ j.val → bs[j] = 0#8

/-- Where byte `i` of a swapped value comes from (R81). -/
def swapIndex (i : Fin 16) : Fin 16 :=
  (#v[3, 2, 1, 0, 5, 4, 7, 6, 8, 9, 10, 11, 12, 13, 14, 15] : Vector (Fin 16) 16)[i]

/-- Where byte `i` of a value in clustering order comes from (R85). -/
def orderIndex (i : Fin 16) : Fin 16 :=
  (#v[6, 7, 4, 5, 0, 1, 2, 3, 8, 9, 10, 11, 12, 13, 14, 15] : Vector (Fin 16) 16)[i]

/-- The command word with the given fields, `op | d << 8 | s << 11 | t << 14 | imm << 17 | m << 21`,
every other bit 0 (R50, R58). -/
def word (op : BitVec 8) (d s t : Fin 8 := 0) (imm : BitVec 4 := 0) (m : Bool := false) : Word :=
  op.setWidth 32 ||| (BitVec.ofNat 32 d.val <<< 8) ||| (BitVec.ofNat 32 s.val <<< 11)
    ||| (BitVec.ofNat 32 t.val <<< 14) ||| (imm.setWidth 32 <<< 17)
    ||| ((if m then 1#32 else 0#32) <<< 21)

/-- `EPOCH_OFFSET` as an integer (R7). -/
def epoch : Nat := 122192928000000000

/-- The error of a command word, cause by cause (R94). -/
def errorOf (w : Word) (s : State) : ErrorCode :=
  match decode w with
  | .illegal _ => .illegalCommand
  | .legal (.parse _) => if normalise s.ibuf s.ilen = none then .invalidLength else .noError
  | .legal (.forin _) => if normalise s.ibuf s.ilen = none then .invalidForeignFormat else .noError
  | .legal (.setver _ _ imm) =>
    if imm.toNat ∈ [1, 2, 3, 4, 5, 6, 7, 8] then .noError else .unsupportedVersion
  | .legal (.stamp _ _ imm) =>
    if imm.toNat ∈ [1, 3, 4, 5, 6, 7, 8] then .noError else .unsupportedVersion
  | .legal _ => .noError

/-- The host's next input is a reset edge. -/
def ResetNext (s : State) : Prop := ∃ a rest, s.pending = .reset a :: rest

/-- The host's next input is a `STATUS` read. -/
def StatusReadNext (s : State) : Prop :=
  ∃ rest, s.pending.head? = some (.access rest) ∧ rest.we = false ∧ rest.size = 2#2 ∧
    rest.addr = 0x004#9

end Sys2Proof.Claims

open Sys2Proof.Claims

/-! ### Encoding -/

/-- Every command's word decodes to that command, every operand at every value (R50-R54, R58). -/
def Obligations.EncodedCommandsDecodeBack : Prop :=
  ∀ i : Instr, decode (encode i) = .legal i

/-- "strict decoding gives every command exactly one encoding" (D16; R54). -/
def Obligations.LegalWordsHaveOneEncoding : Prop :=
  ∀ (w : Word) (i : Instr), decode w = .legal i → encode i = w

/-- R54: a word is legal iff some row selects it; otherwise its opcode is 0x00 or in one of the
unassigned ranges, or a reserved bit is set, or a field its row marks unused is not 0; and an
illegal word raises ILLEGAL_COMMAND and nothing else happens. -/
def Obligations.LegalExactlyWhenARowSelects : Prop :=
  ∀ w : Word,
    ((∃ i, decode w = .legal i) ↔ ∃ r ∈ opcodeMap, w &&& r.mask = r.op) ∧
    ((∃ i, decode w = .legal i) ↔
      w.extractLsb' 22 10 = 0#10 ∧
      ∃ u, usesOf (w.extractLsb' 0 8) = some u ∧
        (u.d = false → w.extractLsb' 8 3 = 0#3) ∧ (u.s = false → w.extractLsb' 11 3 = 0#3) ∧
        (u.t = false → w.extractLsb' 14 3 = 0#3) ∧ (u.imm = false → w.extractLsb' 17 4 = 0#4) ∧
        (u.m = false → w.extractLsb' 21 1 = 0#1)) ∧
    (usesOf (w.extractLsb' 0 8) = none ↔
      ∃ r ∈ [(0x00, 0x0F), (0x15, 0x1F), (0x25, 0x2F), (0x33, 0x3F), (0x43, 0x4F), (0x54, 0x5F),
        (0x65, 0x6F), (0x72, 0xFF)],
        r.1 ≤ (w.extractLsb' 0 8).toNat ∧ (w.extractLsb' 0 8).toNat ≤ r.2) ∧
    ((¬ ∃ i, decode w = .legal i) →
      ∀ s : State, completeCommand w s = .next (failed .illegalCommand s))

/-- The words of R58's examples and of 95_test_vectors.md, one or more of each family, and six
illegal ones. That these six are illegal is the spec's; the reason each is given is the model's own
diagnosis (log entry 12, DESIGN CHOICE): the spec reports only ILLEGAL_COMMAND. -/
def Obligations.WrittenOutWordsDecode : Prop :=
  decode 0x00000010#32 = .legal (.parse 0) ∧ decode 0x00001011#32 = .legal (.fmt 2) ∧
  decode 0x00081222#32 = .legal (.stamp 2 2 4) ∧
  decode 0x00200A30#32 = .legal (.packv1 2 1 0 true) ∧
  decode 0x00008B32#32 = .legal (.packv7 3 1 2) ∧ decode 0x00001140#32 = .legal (.gettime 1 2) ∧
  decode 0x00000452#32 = .legal (.forin 4) ∧ decode 0x00004364#32 = .legal (.cmp 3 0 1) ∧
  decode 0x00000071#32 = .legal .clrerr ∧
  decode 0x00000000#32 = .illegal .unassignedOpcode ∧ decode 0x00000171#32 = .illegal .unusedD ∧
  decode 0x00400010#32 = .illegal .reservedBitSet ∧
  decode 0x00000815#32 = .illegal .unassignedOpcode ∧ decode 0x00200A32#32 = .illegal .unusedM ∧
  decode 0x00020060#32 = .illegal .unusedImm

/-! ### Steps, the host port and the interlock -/

/-- A step runs the in-flight command: with no reset and no `STATUS` read next, it is `exec` of the
decoded command (R44, R55), and the error entry for an illegal word. -/
def Obligations.StepRunsTheInflightCommand : Prop :=
  ∀ (s : State) (w : Word), s.inflight = some w → ¬ ResetNext s → ¬ StatusReadNext s →
    (∀ i, decode w = .legal i → step s = exec i s) ∧
    (∀ why, decode w = .illegal why → step s = .next (failed .illegalCommand s))

/-- "A host write of word `w` issues command `w`" (R24): the write is acknowledged, the word is in
flight and BUSY is 1 (R55), and nothing else changes; a read of `CMD` returns 0. -/
def Obligations.CmdWriteIssuesTheCommand : Prop :=
  ∀ (s : State) (a : Access) (rest : List HostInput),
    s.inflight = none → s.pending = .access a :: rest → a.we = true → a.size = 2#2 →
    a.addr = 0x000#9 →
    step s = .next
      { s with inflight := some a.wdata, pending := rest, replies := s.replies ++ [.written] } ∧
    (statusWord { s with inflight := some a.wdata }).getLsbD 0 = true ∧
    readWindow s 0x000#9 = 0#32

/-- R44: with a command in flight every access waits, unacknowledged, until it has completed; only
a `STATUS` read may be answered first, with BUSY = 1 and the flags and ERR of the state before the
command (R120), which one being the free choice. -/
def Obligations.InterlockHoldsEveryAccessButStatusReads : Prop :=
  ∀ (s : State) (w : Word) (a : Access) (rest : List HostInput),
    s.inflight = some w → s.pending = .access a :: rest →
    (¬ StatusReadNext s → step s = completeCommand w s ∧
      ∀ t, step s = .next t → t.pending = s.pending ∧ t.replies = s.replies ∧
        t.inflight = none) ∧
    (StatusReadNext s →
      if Config.statusReadSeesBusy s.busyReads then
        ∃ x, step s = .next
            { s with
              pending := rest, replies := s.replies ++ [.data x], busyReads := s.busyReads + 1 } ∧
          x = statusWord s ∧ x.getLsbD 0 = true
      else
        step s = completeCommand w { s with busyReads := s.busyReads + 1 } ∧
        ∀ t, step s = .next t → t.pending = s.pending ∧ t.replies = s.replies ∧
          t.inflight = none)

/-- R37: any access that is not an aligned 32-bit one waits like any other, and is then
acknowledged with `err = 1`, `rdata = 0` and no change of state, at any offset. -/
def Obligations.IllegalAccessIsABusError : Prop :=
  ∀ (s : State) (a : Access) (rest : List HostInput),
    s.pending = .access a :: rest → (a.size ≠ 2#2 ∨ a.addr.toNat % 4 ≠ 0) →
    (s.inflight = none →
      step s = .next { s with pending := rest, replies := s.replies ++ [.busError] }) ∧
    (∀ w, s.inflight = some w → step s = completeCommand w s)

/-- R40's reads with R36, R38 and R39: the answer of every legal read at rest, and that a read
changes nothing. -/
def Obligations.HostReadsFollowTheRegisterMap : Prop :=
  ∀ (s : State) (a : Access) (rest : List HostInput),
    s.inflight = none → s.pending = .access a :: rest → a.we = false → a.size = 2#2 →
    a.addr.toNat % 4 = 0 →
    ∃ x : Word,
      step s = .next { s with pending := rest, replies := s.replies ++ [.data x] } ∧
      (a.addr.toNat = 0x000 → x = 0#32) ∧
      (a.addr.toNat = 0x004 → x = statusWord s) ∧
      (a.addr.toNat = 0x008 → x.toNat = s.ilen.toNat) ∧
      (a.addr.toNat = 0x00C → x.toNat = s.olen.toNat) ∧
      (a.addr.toNat = 0x010 → x = 0x55434201#32) ∧
      (∀ n : Fin 8, a.addr.toNat = 0x040 + 8 * n.val → x.toNat = s.r[n].toNat % 2 ^ 32) ∧
      (∀ n : Fin 8, a.addr.toNat = 0x044 + 8 * n.val → x.toNat = s.r[n].toNat / 2 ^ 32) ∧
      (∀ (n : Fin 8) (k j : Fin 4), a.addr.toNat = 0x080 + 16 * n.val + 4 * k.val →
        x.extractLsb' (8 * j.val) 8 = s.v[n][4 * k.val + j.val]) ∧
      (∀ (k : Fin 16) (j : Fin 4), a.addr.toNat = 0x100 + 4 * k.val →
        x.extractLsb' (8 * j.val) 8 = s.ibuf[4 * k.val + j.val]) ∧
      (∀ (k : Fin 16) (j : Fin 4), a.addr.toNat = 0x140 + 4 * k.val →
        x.extractLsb' (8 * j.val) 8 = s.obuf[4 * k.val + j.val]) ∧
      ((0x014 ≤ a.addr.toNat ∧ a.addr.toNat < 0x040) ∨ 0x180 ≤ a.addr.toNat → x = 0#32)

/-- R40's writes with R36, R38 and R39: the effect of every legal write at rest, and that it is
acknowledged without an error. -/
def Obligations.HostWritesFollowTheRegisterMap : Prop :=
  ∀ (s : State) (a : Access) (rest : List HostInput),
    s.inflight = none → s.pending = .access a :: rest → a.we = true → a.size = 2#2 →
    a.addr.toNat % 4 = 0 →
    ∃ t s1 : State, step s = .next t ∧
      s1 = { s with pending := rest, replies := s.replies ++ [.written] } ∧
      (a.addr.toNat = 0x000 → t = { s1 with inflight := some a.wdata }) ∧
      (a.addr.toNat = 0x008 → t = { s1 with ilen := a.wdata.extractLsb' 0 7 }) ∧
      (∀ n : Fin 8, a.addr.toNat = 0x040 + 8 * n.val → ∃ x : Scalar,
        t = { s1 with r := s.r.set n x } ∧
        x.toNat = s.r[n].toNat / 2 ^ 32 * 2 ^ 32 + a.wdata.toNat) ∧
      (∀ n : Fin 8, a.addr.toNat = 0x044 + 8 * n.val → ∃ x : Scalar,
        t = { s1 with r := s.r.set n x } ∧
        x.toNat = a.wdata.toNat * 2 ^ 32 + s.r[n].toNat % 2 ^ 32) ∧
      (∀ (n : Fin 8) (k : Fin 4), a.addr.toNat = 0x080 + 16 * n.val + 4 * k.val → ∃ u : Value,
        t = { s1 with v := s.v.set n u } ∧
        ∀ i : Fin 16, u[i] = if i.val / 4 = k.val then a.wdata.extractLsb' (8 * (i.val % 4)) 8
          else s.v[n][i]) ∧
      (∀ k : Fin 16, a.addr.toNat = 0x100 + 4 * k.val → ∃ b : Buffer,
        t = { s1 with ibuf := b } ∧
        ∀ i : Fin 64, b[i] = if i.val / 4 = k.val then a.wdata.extractLsb' (8 * (i.val % 4)) 8
          else s.ibuf[i]) ∧
      (a.addr.toNat ∈ [0x004, 0x00C, 0x010] ∨ (0x014 ≤ a.addr.toNat ∧ a.addr.toNat < 0x040) ∨
        0x140 ≤ a.addr.toNat → t = s1)

/-- R39: the two words of a scalar register, read and written, in either order. -/
def Obligations.ScalarRegisterWords : Prop :=
  ∀ (s : State) (n : Fin 8) (w x : Word),
    readWindow s (BitVec.ofNat 9 (0x040 + 8 * n.val)) = s.r[n].extractLsb' 0 32 ∧
    readWindow s (BitVec.ofNat 9 (0x044 + 8 * n.val)) = s.r[n].extractLsb' 32 32 ∧
    (∃ x : Scalar, writeWindow s (BitVec.ofNat 9 (0x040 + 8 * n.val)) w = { s with r := s.r.set n x } ∧
      x.extractLsb' 0 32 = w ∧ x.extractLsb' 32 32 = s.r[n].extractLsb' 32 32) ∧
    (∃ x : Scalar, writeWindow s (BitVec.ofNat 9 (0x044 + 8 * n.val)) w = { s with r := s.r.set n x } ∧
      x.extractLsb' 32 32 = w ∧ x.extractLsb' 0 32 = s.r[n].extractLsb' 0 32) ∧
    ∃ y : Scalar, y.toNat = x.toNat * 2 ^ 32 + w.toNat ∧
      writeWindow (writeWindow s (BitVec.ofNat 9 (0x040 + 8 * n.val)) w)
        (BitVec.ofNat 9 (0x044 + 8 * n.val)) x = { s with r := s.r.set n y } ∧
      writeWindow (writeWindow s (BitVec.ofNat 9 (0x044 + 8 * n.val)) x)
        (BitVec.ofNat 9 (0x040 + 8 * n.val)) w = { s with r := s.r.set n y }

/-- A write to `ILEN`, an R, a V or an `IBUF` word reads back as written, 7 bits of it for `ILEN`,
and every other aligned offset reads as before (R25, R38, R39, R40). -/
def Obligations.WriteThenRead : Prop :=
  ∀ (s : State) (a b : BitVec 9) (w : Word), a.toNat % 4 = 0 → b.toNat % 4 = 0 →
    (a.toNat = 0x008 → readWindow (writeWindow s a w) a = w &&& 0x7F#32) ∧
    (0x040 ≤ a.toNat → a.toNat < 0x140 → readWindow (writeWindow s a w) a = w) ∧
    (a.toNat ≠ 0x000 → a ≠ b → readWindow (writeWindow s a w) b = readWindow s b)

/-- "Writes other than a `CMD` write are idempotent" (20_memory.md section 4). -/
def Obligations.RegisterWritesAreIdempotent : Prop :=
  ∀ (s : State) (a : BitVec 9) (w : Word), a.toNat % 4 = 0 → a.toNat ≠ 0x000 →
    writeWindow (writeWindow s a w) a w = writeWindow s a w

/-- R36: reserved offsets read 0 and ignore writes, and the reserved bits of `ILEN`, `OLEN` and
`STATUS` read 0. -/
def Obligations.ReservedOffsetsAndBitsReadZero : Prop :=
  ∀ (s : State) (a : Access) (rest : List HostInput),
    s.inflight = none → s.pending = .access a :: rest → a.size = 2#2 → a.addr.toNat % 4 = 0 →
    ((0x014 ≤ a.addr.toNat ∧ a.addr.toNat < 0x040) ∨ 0x180 ≤ a.addr.toNat →
      step s = .next
        { s with
          pending := rest,
          replies := s.replies ++ [if a.we then .written else .data 0#32] }) ∧
    (∀ k : Fin 32, 7 ≤ k.val → (readWindow s 0x008#9).getLsbD k.val = false ∧
      (readWindow s 0x00C#9).getLsbD k.val = false) ∧
    (∀ k : Fin 32, k.val = 2 ∨ k.val = 3 ∨ 12 ≤ k.val →
      (readWindow s 0x004#9).getLsbD k.val = false)

/-- The fields of `STATUS` (10_state.md section 5). -/
def Obligations.StatusWordFields : Prop :=
  ∀ s : State,
    (statusWord s).getLsbD 0 = s.inflight.isSome ∧ (statusWord s).getLsbD 1 = s.sticky ∧
    (statusWord s).extractLsb' 4 4 = s.err.code ∧ (statusWord s).getLsbD 8 = s.tv ∧
    (statusWord s).getLsbD 9 = s.tn ∧ (statusWord s).getLsbD 10 = s.tu ∧
    (statusWord s).getLsbD 11 = s.nv

/-- "A block at rest changes no state by itself" (10_state.md section 1). -/
def Obligations.BlockAtRestChangesNothing : Prop :=
  ∀ s : State, s.inflight = none → s.pending = [] → step s = .next s

/-- The platform presents `UCB_BASE + off` as the offset `off` (20_memory.md sections 1 and 2), and
`UCB_BASE` is a multiple of 0x200 (00_scope.md section 4). That an address outside the window is
presented to no block is the model's choice (log entry 5, DESIGN CHOICE, unsafe on a platform that
decodes partially). -/
def Obligations.PlatformWindow : Prop :=
  Config.ucbBase % 0x200 = 0 ∧
  (∀ (off : BitVec 9) (w : Word),
    memRead (Config.ucbBase + off.toNat) = some ⟨false, off, 2#2, 0#32⟩ ∧
    memWrite (Config.ucbBase + off.toNat) w = some ⟨true, off, 2#2, w⟩) ∧
  ∀ (a : Nat) (w : Word), (a < Config.ucbBase ∨ Config.ucbBase + 0x200 ≤ a) →
    memRead a = none ∧ memWrite a w = none

/-! ### Reset -/

/-- R111: a reset edge, in any state, abandons the command in flight, does not acknowledge the
access in progress, and leaves every item of state at its reset value, so that every aligned offset
of the window reads 0; `ID` reads as always. -/
def Obligations.ResetFromAnyState : Prop :=
  ∀ (s : State) (a : Option Access) (rest : List HostInput), s.pending = .reset a :: rest →
    ∃ t, step s = .next t ∧
      (∀ (n : Fin 8) (k : Fin 16), t.v[n][k] = 0#8) ∧ (∀ n : Fin 8, t.r[n] = 0#64) ∧
      statusWord t = 0#32 ∧ t.sticky = false ∧ t.err = .noError ∧ t.tv = false ∧ t.tn = false ∧
      t.tu = false ∧ t.nv = false ∧ t.ilen = 0 ∧ t.olen = 0 ∧
      (∀ k : Fin 64, t.ibuf[k] = 0#8 ∧ t.obuf[k] = 0#8) ∧ t.inflight = none ∧
      (∀ a : BitVec 9, a.toNat % 4 = 0 →
        readWindow t a = if a = 0x010#9 then 0x55434201#32 else 0#32) ∧
      readWindow s 0x010#9 = 0x55434201#32 ∧
      t.pending = rest ∧ t.replies = s.replies ∧
      t = { State.reset with pending := rest, replies := s.replies, busyReads := t.busyReads }

/-- R113: commands run on the reset state: `FMT V0` gives the nil string, and `PARSE V0` raises
INVALID_LENGTH; the block is idle and accepts any access at once. -/
def Obligations.CommandsRunStraightAfterReset : Prop :=
  (∃ t, exec (.fmt 0) State.reset = .next t ∧ CanonFrom t.obuf 0 nilValue ∧ t.olen.toNat = 36 ∧
    t.err = .noError) ∧
  exec (.parse 0) State.reset = .next (failed .invalidLength State.reset) ∧
  (∀ a : Access, ∃ t, step { State.reset with pending := [.access a] } = .next t ∧
    t.pending = [] ∧ t.replies.length = 1)

/-! ### Every step -/

/-- "The block never halts" and every command completes (70_reset_and_hazards.md section 4): from
every state every run of every length is a safe run. -/
def Obligations.EveryRunIsSafe : Prop := ∀ (k : Nat) (s : State), SafeRun k s

/-- BUSY falls, whatever the free choices are, after at most one step more than there are host
inputs; the `STATUS` word then differs because its BUSY bit does. It bounds in the model's steps the
finite time of 70_reset_and_hazards.md section 4: the bound is the model's, by its list of inputs
(log entry 1, DESIGN CHOICE) and its free choice for each `STATUS` read (log entry 3, DESIGN
CHOICE). -/
def Obligations.EveryCommandCompletes : Prop :=
  ∀ s : State, ∃ k t, k ≤ s.pending.length + 1 ∧ Host.Core.run core k s = .next t ∧
    t.inflight = none ∧ (s.inflight.isSome → statusWord s ≠ statusWord t)

/-- R115, R55: where no `STATUS` read is among the host's inputs, the machine with a visible
in-flight command runs exactly as the one that runs each command at its `CMD` write. -/
def Obligations.StepwiseRunEqualsAtomicRun : Prop :=
  ∀ s : State, s.inflight = none → (∀ x ∈ s.pending, x.seesNoBusy = true) →
    ∃ k, k ≤ 2 * s.pending.length ∧
      Host.Core.run core k s = atomicRun s.pending.length s ∧
      ∃ t, atomicRun s.pending.length s = .next t ∧ t.pending = [] ∧ t.inflight = none

/-- The invariant holds at reset. -/
def Obligations.InvariantAtReset : Prop := State.reset.Inv

/-- Every step keeps the invariant: a legal error code (R23), STICKY set while an error code
stands (R22, R55), OBUF zero at and above OLEN (R26, R29), and time flags that agree (R77). -/
def Obligations.EveryStepKeepsTheInvariant : Prop :=
  ∀ s t : State, s.Inv → step s = .next t → t.Inv

/-- R22: STICKY is set by every command that completes with an error, cleared only by CLRERR or
reset, left by a successful command, and 0 at reset. -/
def Obligations.StickySetByErrorsClearedByClrerrOrReset : Prop :=
  (∀ (w : Word) (s t : State), completeCommand w s = .next t → t.err ≠ .noError →
    t.sticky = true) ∧
  (∀ s t : State, step s = .next t → s.sticky = true → t.sticky = false →
    ResetNext s ∨ s.inflight = some 0x00000071#32) ∧
  (∀ (i : Instr) (s t : State), i ≠ .clrerr → exec i s = .next t → t.err = .noError →
    t.sticky = s.sticky) ∧
  (∀ s : State, exec .clrerr s = .next (done { s with sticky := false })) ∧
  State.reset.sticky = false

/-- R94, R98: the codes, and that every command word completes with the one error its cause gives;
codes 3, 4 and 7..15 are never raised. -/
def Obligations.EachErrorHasItsCause : Prop :=
  [ErrorCode.noError, .invalidLength, .unsupportedVersion, .missingName, .missingNamespace,
    .invalidForeignFormat, .illegalCommand].map (fun e => e.code.toNat) = [0, 1, 2, 3, 4, 5, 6] ∧
  ∀ (w : Word) (s : State), ∃ t, completeCommand w s = .next t ∧ t.err = errorOf w s ∧
    t.err.code.toNat ∈ [0, 1, 2, 5, 6]

/-- R23: ERR is written at the completion of every command, 0 or its error's code, and nothing but
a completion or a reset writes it; codes 3, 4 and 7..15 are never written. -/
def Obligations.ErrIsWrittenAtEveryCompletion : Prop :=
  (∀ s t : State, s.inflight = none → ¬ ResetNext s → step s = .next t → t.err = s.err) ∧
  (∀ (s t : State) (w : Word), s.inflight = some w → ¬ ResetNext s → step s = .next t →
    (t.inflight = none ∧ t.err = errorOf w s) ∨ (t.inflight = some w ∧ t.err = s.err)) ∧
  (∀ s t : State, step s = .next t → t.err = s.err ∨ t.err.code.toNat ∈ [0, 1, 2, 5, 6]) ∧
  State.reset.err.code = 0#4

/-- R96: a command word with an error completes with STATUS.ERR, STATUS.STICKY and STATUS.BUSY
written, and no register, buffer, length or flag. -/
def Obligations.AnErrorChangesNothingElse : Prop :=
  ∀ (w : Word) (s : State), errorOf w s ≠ .noError →
    completeCommand w s =
      .next { s with err := errorOf w s, sticky := true, inflight := none }

/-- R20 and the `STATUS` table: TV, TN and TU are written by GETTIME only, NV by GETNODE and
NODEHEX only, nothing but those commands and a reset changes them, and no command reads one. -/
def Obligations.FlagsAreWrittenByTheirCommandsOnly : Prop :=
  (∀ (i : Instr) (s t : State), exec i s = .next t → (∀ d src, i ≠ .gettime d src) →
    t.tv = s.tv ∧ t.tn = s.tn ∧ t.tu = s.tu) ∧
  (∀ (i : Instr) (s t : State), exec i s = .next t → (∀ d src, i ≠ .getnode d src) →
    (∀ src, i ≠ .nodehex src) → t.nv = s.nv) ∧
  (∀ s t : State, s.inflight = none → ¬ ResetNext s → step s = .next t →
    t.tv = s.tv ∧ t.tn = s.tn ∧ t.tu = s.tu ∧ t.nv = s.nv) ∧
  (∀ (i : Instr) (s t : State) (a b c d : Bool), exec i s = .next t →
    ∃ t', exec i { s with tv := a, tn := b, tu := c, nv := d } = .next t' ∧
      { t' with tv := t.tv, tn := t.tn, tu := t.tu, nv := t.nv } = t)

/-- No command writes `IBUF` or `ILEN` (R25, R28), or touches the host's inputs and answers; each
ends with BUSY = 0 (R55). -/
def Obligations.CommandsNeverWriteTheInput : Prop :=
  ∀ (w : Word) (s t : State), completeCommand w s = .next t →
    t.ibuf = s.ibuf ∧ t.ilen = s.ilen ∧ t.pending = s.pending ∧ t.replies = s.replies ∧
    t.busyReads = s.busyReads ∧ t.inflight = none

/-- The frame of every command, read through the window: every aligned offset that is not the
command's destination, nor `STATUS`, reads as before (20_memory.md section 2; 30_encoding.md
section 3). -/
def Obligations.CommandsWriteOnlyTheirDestination : Prop :=
  ∀ (i : Instr) (s t : State) (a : BitVec 9), exec i s = .next t →
    mayWrite i (regionOf a) = false → readWindow t a = readWindow s a

/-- The frame of every command over the registers: a command writes at most its destination
register; the commands with a V destination write no R register, those with an R destination no V
register, and only the output commands write OBUF and OLEN (R26, R29). -/
def Obligations.RegisterFrame : Prop :=
  ∀ (i : Instr) (s t : State), exec i s = .next t →
    (∀ n : Fin 8, mayWrite i (.valueWord n 0) = false → t.v[n] = s.v[n]) ∧
    (∀ n : Fin 8, mayWrite i (.scalarWord n true) = false → t.r[n] = s.r[n]) ∧
    (mayWrite i .olen = false → t.obuf = s.obuf ∧ t.olen = s.olen)

/-! ### Codec -/

/-- R60: the steps of normalisation, with the hex digits' values spelled out, and what each command
makes of a failure. -/
def Obligations.NormaliseFollowsItsSteps : Prop :=
  (∀ (ibuf : Buffer) (ilen : BitVec 7), 64 < ilen.toNat → normalise ibuf ilen = none) ∧
  (∀ (ibuf : Buffer) (ilen : BitVec 7), ilen.toNat = 16 →
    ∃ u, normalise ibuf ilen = some u ∧ ∀ k : Fin 16, u[k] = ibuf[k.val]) ∧
  (∀ (ibuf : Buffer) (ilen : BitVec 7) (body h : List Byte), ilen.toNat ≤ 64 →
    ilen.toNat ≠ 16 →
    body = (if 9 ≤ ilen.toNat ∧ (ibuf.toList.take 9 =
        [0x75#8, 0x72#8, 0x6e#8, 0x3a#8, 0x75#8, 0x75#8, 0x69#8, 0x64#8, 0x3a#8])
      then (ibuf.toList.take ilen.toNat).drop 9 else ibuf.toList.take ilen.toNat) →
    h = body.filter (fun c => (0x30 ≤ c.toNat ∧ c.toNat ≤ 0x39) ∨ (0x41 ≤ c.toNat ∧ c.toNat ≤ 0x46)
      ∨ (0x61 ≤ c.toNat ∧ c.toNat ≤ 0x66)) →
    (h.length ≠ 32 → normalise ibuf ilen = none) ∧
    (h.length = 32 → ∃ u, normalise ibuf ilen = some u ∧
      ∀ k : Fin 16, u[k].toNat = hexVal (h.getD (2 * k.val) 0) * 16 +
        hexVal (h.getD (2 * k.val + 1) 0))) ∧
  (∀ n : Fin 10, hexVal (BitVec.ofNat 8 (0x30 + n.val)) = n.val) ∧
  (∀ n : Fin 6, hexVal (BitVec.ofNat 8 (0x61 + n.val)) = 10 + n.val ∧
    hexVal (BitVec.ofNat 8 (0x41 + n.val)) = 10 + n.val) ∧
  (∀ (d : Fin 8) (s : State), normalise s.ibuf s.ilen = none →
    exec (.parse d) s = .next (failed .invalidLength s) ∧
    exec (.forin d) s = .next (failed .invalidForeignFormat s) ∧
    exec (.valid d) s = .next (done { s with r := s.r.set d 0#64 }) ∧
    exec (.isnilin d) s = .next (done { s with r := s.r.set d 0#64 }))

/-- R62: PARSE writes the normalised input to its destination, or raises INVALID_LENGTH. -/
def Obligations.ParseImportsTheInput : Prop :=
  ∀ (d : VReg) (s : State),
    decode (word 0x10#8 d) = .legal (.parse d) ∧
    (∀ u, normalise s.ibuf s.ilen = some u →
      exec (.parse d) s = .next (done { s with v := s.v.set d u })) ∧
    (normalise s.ibuf s.ilen = none → exec (.parse d) s = .next (failed .invalidLength s))

/-- R63 with R61: FMT writes the canonical string, 36 bytes, and zeros. -/
def Obligations.FmtWritesTheCanonicalString : Prop :=
  ∀ (src : VReg) (s : State), decode (word 0x11#8 0 src) = .legal (.fmt src) ∧ ∃ b : Buffer,
    exec (.fmt src) s = .next (done { s with obuf := b, olen := 36#7 }) ∧
    CanonFrom b 0 s.v[src] ∧ ZeroFrom b 36

/-- R64: HEX writes the 32 digits, and zeros. -/
def Obligations.HexWritesTheDigits : Prop :=
  ∀ (src : VReg) (s : State), decode (word 0x12#8 0 src) = .legal (.hex src) ∧ ∃ b : Buffer,
    exec (.hex src) s = .next (done { s with obuf := b, olen := 32#7 }) ∧
    HexFrom b s.v[src].toList ∧ ZeroFrom b 32

/-- R65: URN writes `urn:uuid:` and the canonical string, 45 bytes, and zeros. -/
def Obligations.UrnWritesTheLeadAndTheString : Prop :=
  ∀ (src : VReg) (s : State), decode (word 0x13#8 0 src) = .legal (.urn src) ∧ ∃ b : Buffer,
    exec (.urn src) s = .next (done { s with obuf := b, olen := 45#7 }) ∧
    b.toList.take 9 = [0x75#8, 0x72#8, 0x6e#8, 0x3a#8, 0x75#8, 0x75#8, 0x69#8, 0x64#8, 0x3a#8] ∧
    CanonFrom b 9 s.v[src] ∧ ZeroFrom b 45

/-- R66: RAW writes the 16 bytes, and zeros. -/
def Obligations.RawExportsTheBytes : Prop :=
  ∀ (src : VReg) (s : State), decode (word 0x14#8 0 src) = .legal (.raw src) ∧ ∃ b : Buffer,
    exec (.raw src) s = .next (done { s with obuf := b, olen := 16#7 }) ∧
    (∀ k : Fin 16, b[k.val] = s.v[src][k]) ∧ ZeroFrom b 16

/-- The round-trip law of R61, R65 and R66: what FMT, HEX, URN and RAW put out, copied to the input
by the host, PARSE reads back as the same value. -/
def Obligations.OutputParsesBackToTheValue : Prop :=
  ∀ (i : Instr) (src d : VReg) (s : State), i ∈ [.fmt src, .hex src, .urn src, .raw src] →
    ∃ t t', exec i s = .next t ∧
      exec (.parse d) { t with ibuf := t.obuf, ilen := t.olen } = .next t' ∧
      t'.v[d] = s.v[src] ∧ t'.err = .noError

/-! ### Bit fields -/

/-- R67: SETVER writes the high nibble of byte 6, for versions 1..8, and raises
UNSUPPORTED_VERSION for every other. -/
def Obligations.SetverWritesTheVersionNibble : Prop :=
  ∀ (d src : VReg) (imm : BitVec 4) (s : State),
    decode (word 0x20#8 d src 0 imm) = .legal (.setver d src imm) ∧
    (1 ≤ imm.toNat ∧ imm.toNat ≤ 8 → ∃ u : Value,
      exec (.setver d src imm) s = .next (done { s with v := s.v.set d u }) ∧
      u[6].toNat = imm.toNat * 16 + s.v[src][6].toNat % 16 ∧
      ∀ k : Fin 16, k ≠ 6 → u[k] = s.v[src][k]) ∧
    (imm.toNat = 0 ∨ 9 ≤ imm.toNat →
      exec (.setver d src imm) s = .next (failed .unsupportedVersion s))

/-- R68: SETVAR writes the two top bits of byte 8 with 10. -/
def Obligations.SetvarWritesTheVariantBits : Prop :=
  ∀ (d src : VReg) (s : State),
    decode (word 0x21#8 d src) = .legal (.setvar d src) ∧ ∃ u : Value,
    exec (.setvar d src) s = .next (done { s with v := s.v.set d u }) ∧
    u[8].toNat = 0x80 + s.v[src][8].toNat % 64 ∧ ∀ k : Fin 16, k ≠ 8 → u[k] = s.v[src][k]

/-- R69: STAMP writes both, for versions 1, 3..8, and raises UNSUPPORTED_VERSION for every other,
leaving the destination. -/
def Obligations.StampWritesVersionAndVariant : Prop :=
  ∀ (d src : VReg) (imm : BitVec 4) (s : State),
    decode (word 0x22#8 d src 0 imm) = .legal (.stamp d src imm) ∧
    (imm.toNat ∈ [1, 3, 4, 5, 6, 7, 8] → ∃ u : Value,
      exec (.stamp d src imm) s = .next (done { s with v := s.v.set d u }) ∧
      u[6].toNat = imm.toNat * 16 + s.v[src][6].toNat % 16 ∧
      u[8].toNat = 0x80 + s.v[src][8].toNat % 64 ∧
      ∀ k : Fin 16, k ≠ 6 → k ≠ 8 → u[k] = s.v[src][k]) ∧
    (imm.toNat = 0 ∨ imm.toNat = 2 ∨ 9 ≤ imm.toNat →
      exec (.stamp d src imm) s = .next (failed .unsupportedVersion s))

/-- The derived properties of 42_bitfields.md (STAMP, corner cases): it is idempotent, it equals
SETVER followed by SETVAR, and after it GETVER gives the version and GETVAR gives 1 (GETVAR's
thresholds: log entry 11). -/
def Obligations.StampedValuesReadBack : Prop :=
  ∀ (d src : VReg) (e f : RReg) (imm : BitVec 4) (s : State), imm.toNat ∈ [1, 3, 4, 5, 6, 7, 8] →
    ∃ t, exec (.stamp d src imm) s = .next t ∧ exec (.stamp d d imm) t = .next t ∧
      (∃ t1, exec (.setver d src imm) s = .next t1 ∧ exec (.setvar d d) t1 = .next t) ∧
      (∃ t2, exec (.getver e d) t = .next t2 ∧ t2.r[e].toNat = imm.toNat) ∧
      (∃ t3, exec (.getvar f d) t = .next t3 ∧ t3.r[f] = 1#64)

/-- R70: GETVER reads the high nibble of byte 6, whatever it is. -/
def Obligations.GetverReadsTheVersionNibble : Prop :=
  ∀ (d : RReg) (src : VReg) (s : State),
    decode (word 0x23#8 d src) = .legal (.getver d src) ∧ ∃ x : Scalar,
    exec (.getver d src) s = .next (done { s with r := s.r.set d x }) ∧
    x.toNat = s.v[src][6].toNat / 16

/-- R71: GETVAR classifies byte 8 by the thresholds 0x80, 0xC0 and 0xE0. The thresholds are the
spec's passage from general knowledge (log entry 11). -/
def Obligations.GetvarClassifiesByteEight : Prop :=
  ∀ (d : RReg) (src : VReg) (s : State),
    decode (word 0x24#8 d src) = .legal (.getvar d src) ∧ ∃ x : Scalar,
    exec (.getvar d src) s = .next (done { s with r := s.r.set d x }) ∧
    (s.v[src][8].toNat < 0x80 → x = 0#64) ∧
    (0x80 ≤ s.v[src][8].toNat ∧ s.v[src][8].toNat < 0xC0 → x = 1#64) ∧
    (0xC0 ≤ s.v[src][8].toNat ∧ s.v[src][8].toNat < 0xE0 → x = 2#64) ∧
    (0xE0 ≤ s.v[src][8].toNat → x = 3#64)

/-! ### Packers -/

/-- R73 with R72: PACKV1 packs the Gregorian ticks as time-low, time-mid, time-high, and copies the
clock sequence and the node, with the multicast bit for `m`. -/
def Obligations.PackvOneLayout : Prop :=
  ∀ (d src : VReg) (t : RReg) (m : Bool) (s : State),
    decode (word 0x30#8 d src t 0 m) = .legal (.packv1 d src t m) ∧ ∃ u : Value,
    exec (.packv1 d src t m) s = .next (done { s with v := s.v.set d u }) ∧
    sumBe [u[6], u[7], u[4], u[5], u[0], u[1], u[2], u[3]] = (s.r[t].toNat + epoch) % 2 ^ 64 ∧
    (∀ k : Fin 16, 8 ≤ k.val → k ≠ 10 → u[k] = s.v[src][k]) ∧
    u[10] = s.v[src][10] ||| (if m then 0x01#8 else 0x00#8)

/-- R74 with R72: PACKV6 packs the Gregorian ticks in big-endian order. -/
def Obligations.PackvSixLayout : Prop :=
  ∀ (d src : VReg) (t : RReg) (m : Bool) (s : State),
    decode (word 0x31#8 d src t 0 m) = .legal (.packv6 d src t m) ∧ ∃ u : Value,
    exec (.packv6 d src t m) s = .next (done { s with v := s.v.set d u }) ∧
    sumBe [u[0], u[1], u[2], u[3], u[4], u[5], u[6], u[7]] = (s.r[t].toNat + epoch) % 2 ^ 64 ∧
    (∀ k : Fin 16, 8 ≤ k.val → k ≠ 10 → u[k] = s.v[src][k]) ∧
    u[10] = s.v[src][10] ||| (if m then 0x01#8 else 0x00#8)

/-- R75: PACKV7 packs the milliseconds modulo 2^48 and copies bytes 6..15. -/
def Obligations.PackvSevenLayout : Prop :=
  ∀ (d src : VReg) (t : RReg) (s : State),
    decode (word 0x32#8 d src t) = .legal (.packv7 d src t) ∧ ∃ u : Value,
    exec (.packv7 d src t) s = .next (done { s with v := s.v.set d u }) ∧
    sumBe [u[0], u[1], u[2], u[3], u[4], u[5]] = s.r[t].toNat % 2 ^ 48 ∧
    ∀ k : Fin 16, 6 ≤ k.val → u[k] = s.v[src][k]

/-! ### Accessors -/

/-- R77: the timestamp, its validity, its sign and its unit, by version. The exact signed result is
the tick count less the epoch offset, read through TN. -/
def Obligations.GettimeExtractsTheTime : Prop :=
  ∀ (d : RReg) (src : VReg) (s : State) (u : Value) (ver T M : Nat), u = s.v[src] →
    ver = u[6].toNat / 16 →
    T = (if ver = 1 then sumBe [u[6] &&& 0x0F#8, u[7], u[4], u[5], u[0], u[1], u[2], u[3]]
      else sumBe [u[0], u[1], u[2], u[3], u[4], u[5], u[6] &&& 0x0F#8, u[7]]) →
    M = sumBe [u[0], u[1], u[2], u[3], u[4], u[5]] →
    decode (word 0x40#8 d src) = .legal (.gettime d src) ∧
    (ver = 1 ∨ ver = 6 → ∃ x : Scalar,
      exec (.gettime d src) s = .next (done
        { s with r := s.r.set d x, tv := true, tn := decide (T < epoch), tu := false }) ∧
      (x.toNat : Int) - (if T < epoch then 2 ^ 64 else 0) = (T : Int) - (epoch : Int)) ∧
    (ver = 7 → ∃ x : Scalar,
      exec (.gettime d src) s = .next (done
        { s with r := s.r.set d x, tv := true, tn := false, tu := true }) ∧ x.toNat = M) ∧
    (ver ∉ [1, 6, 7] →
      exec (.gettime d src) s = .next (done
        { s with r := s.r.set d 0#64, tv := false, tn := false, tu := false }))

/-- R78: the node as a 48-bit integer, and NV, by version. -/
def Obligations.GetnodeExtractsTheNode : Prop :=
  ∀ (d : RReg) (src : VReg) (s : State) (u : Value) (ver : Nat), u = s.v[src] →
    ver = u[6].toNat / 16 →
    decode (word 0x41#8 d src) = .legal (.getnode d src) ∧
    (ver = 1 ∨ ver = 6 → ∃ x : Scalar,
      exec (.getnode d src) s = .next (done { s with r := s.r.set d x, nv := true }) ∧
      x.toNat = sumBe [u[10], u[11], u[12], u[13], u[14], u[15]]) ∧
    (ver ≠ 1 ∧ ver ≠ 6 →
      exec (.getnode d src) s = .next (done { s with r := s.r.set d 0#64, nv := false }))

/-- R79: the node as twelve lower-case digits, and NV; without a node OBUF is cleared and OLEN is
0. -/
def Obligations.NodehexWritesTheNode : Prop :=
  ∀ (src : VReg) (s : State) (u : Value) (ver : Nat), u = s.v[src] → ver = u[6].toNat / 16 →
    decode (word 0x42#8 0 src) = .legal (.nodehex src) ∧
    (ver = 1 ∨ ver = 6 → ∃ b : Buffer,
      exec (.nodehex src) s = .next (done { s with obuf := b, olen := 12#7, nv := true }) ∧
      HexFrom b [u[10], u[11], u[12], u[13], u[14], u[15]] ∧ ZeroFrom b 12) ∧
    (ver ≠ 1 ∧ ver ≠ 6 → ∃ b : Buffer,
      exec (.nodehex src) s = .next (done { s with obuf := b, olen := 0#7, nv := false }) ∧
      ZeroFrom b 0)

/-- The derived round trips of 44_accessors.md (GETTIME, corner cases), through the
pseudo-instructions of 30_encoding.md: version 1 returns `U` exactly when `U + EPOCH_OFFSET` is
below 2^60; version 6 returns `U` less the four lost bits of `T`; version 7 returns the
milliseconds modulo 2^48. -/
def Obligations.MintedTimesReadBack : Prop :=
  ∀ (d src : VReg) (t e : RReg) (m : Bool) (s : State),
    (∃ a b c, (Pseudo.mint1 d src t m).expand = [a, b] ∧
      ∃ s1 s2, exec a s = .next s1 ∧ exec b s1 = .next s2 ∧ exec (.gettime e d) s2 = .next c ∧
        c.tv = true ∧ c.tu = false ∧
        (exactTime c.r[e] c.tn = (s.r[t].toNat : Int) ↔ s.r[t].toNat + epoch < 2 ^ 60)) ∧
    (∃ a b c, (Pseudo.mint6 d src t m).expand = [a, b] ∧
      ∃ s1 s2, exec a s = .next s1 ∧ exec b s1 = .next s2 ∧ exec (.gettime e d) s2 = .next c ∧
        c.tv = true ∧ c.tu = false ∧
        c.r[e] = s.r[t] - ((s.r[t] + Config.epochOffset) &&& 0x000000000000F000#64)) ∧
    (∃ a b c, (Pseudo.mint7 d src t).expand = [a, b] ∧
      ∃ s1 s2, exec a s = .next s1 ∧ exec b s1 = .next s2 ∧ exec (.gettime e d) s2 = .next c ∧
        c.tv = true ∧ c.tu = true ∧ c.tn = false ∧
        c.r[e].toNat = s.r[t].toNat % 2 ^ 48)

/-! ### Byte order -/

/-- R82 and R83 with R81: TOFOR and FROMFOR reverse the first three fields' bytes. -/
def Obligations.ToforAndFromforSwapTheFields : Prop :=
  ∀ (d src : VReg) (s : State),
    decode (word 0x50#8 d src) = .legal (.tofor d src) ∧
    decode (word 0x51#8 d src) = .legal (.fromfor d src) ∧ ∃ u : Value,
    exec (.tofor d src) s = .next (done { s with v := s.v.set d u }) ∧
    exec (.fromfor d src) s = .next (done { s with v := s.v.set d u }) ∧
    ∀ k : Fin 16, u[k] = s.v[src][swapIndex k]

/-- "`FROMFOR(TOFOR(x)) = x` for every value" (45_byteorder.md, the round trip property), and CMP
then answers 1. -/
def Obligations.ForeignOrderRoundTrip : Prop :=
  ∀ (a b c : VReg) (e : RReg) (s : State), a ≠ b → a ≠ c →
    ∃ s1 s2 s3, exec (.tofor b a) s = .next s1 ∧ exec (.fromfor c b) s1 = .next s2 ∧
      exec (.cmp e a c) s2 = .next s3 ∧ s2.v[c] = s.v[a] ∧ s3.r[e] = 1#64

/-- R84: FORIN writes the swapped normalised input, or raises INVALID_FOREIGN_FORMAT. -/
def Obligations.ForinImportsForeignOrder : Prop :=
  ∀ (d : VReg) (s : State),
    decode (word 0x52#8 d) = .legal (.forin d) ∧
    (∀ f, normalise s.ibuf s.ilen = some f → ∃ u : Value,
      exec (.forin d) s = .next (done { s with v := s.v.set d u }) ∧
      ∀ k : Fin 16, u[k] = f[swapIndex k]) ∧
    (normalise s.ibuf s.ilen = none →
      exec (.forin d) s = .next (failed .invalidForeignFormat s))

/-- R85: ORDER puts time-high, time-mid, time-low first; it is not its own inverse. -/
def Obligations.OrderReordersTheTimeFields : Prop :=
  ∀ (d src : VReg) (s : State),
    decode (word 0x53#8 d src) = .legal (.order d src) ∧ ∃ u : Value,
    exec (.order d src) s = .next (done { s with v := s.v.set d u }) ∧
    (∀ k : Fin 16, u[k] = s.v[src][orderIndex k]) ∧
    ∃ u2 : Value, exec (.order d d) (done { s with v := s.v.set d u }) =
        .next (done { s with v := s.v.set d u2 }) ∧
      ∀ k : Fin 16, u2[k] = s.v[src][(#v[2, 3, 0, 1, 6, 7, 4, 5, 8, 9, 10, 11, 12, 13, 14, 15] :
        Vector (Fin 16) 16)[k]]

/-! ### Nil, validate, compare, housekeeping -/

/-- R87, R92: NIL loads sixteen zero bytes, MOVV copies. -/
def Obligations.NilAndMovvWriteTheirValue : Prop :=
  ∀ (d src : VReg) (s : State),
    decode (word 0x60#8 d) = .legal (.nil d) ∧ decode (word 0x70#8 d src) = .legal (.movv d src) ∧
    ∃ u : Value,
    exec (.nil d) s = .next (done { s with v := s.v.set d u }) ∧ (∀ k : Fin 16, u[k] = 0#8) ∧
    exec (.movv d src) s = .next (done { s with v := s.v.set d s.v[src] })

/-- R88, R91: ISNIL and CMP answer 1 or 0, bit for bit. -/
def Obligations.IsnilAndCmpCompareBytes : Prop :=
  ∀ (d : RReg) (src t : VReg) (s : State),
    decode (word 0x61#8 d src) = .legal (.isnil d src) ∧
    decode (word 0x64#8 d src t) = .legal (.cmp d src t) ∧ ∃ x y : Scalar,
    exec (.isnil d src) s = .next (done { s with r := s.r.set d x }) ∧
    ((∀ k : Fin 16, s.v[src][k] = 0#8) → x = 1#64) ∧
    ((∃ k : Fin 16, s.v[src][k] ≠ 0#8) → x = 0#64) ∧
    exec (.cmp d src t) s = .next (done { s with r := s.r.set d y }) ∧
    ((∀ k : Fin 16, s.v[src][k] = s.v[t][k]) → y = 1#64) ∧
    ((∃ k : Fin 16, s.v[src][k] ≠ s.v[t][k]) → y = 0#64)

/-- R89, R90: ISNILIN and VALID answer 1 or 0 and never raise. -/
def Obligations.IsnilinAndValidNeverRaise : Prop :=
  ∀ (d : RReg) (s : State),
    decode (word 0x62#8 d) = .legal (.isnilin d) ∧ decode (word 0x63#8 d) = .legal (.valid d) ∧
    ∃ x y : Scalar,
    exec (.isnilin d) s = .next (done { s with r := s.r.set d x }) ∧
    exec (.valid d) s = .next (done { s with r := s.r.set d y }) ∧
    (normalise s.ibuf s.ilen = none → x = 0#64 ∧ y = 0#64) ∧
    (∀ u, normalise s.ibuf s.ilen = some u → y = 1#64 ∧
      ((∀ k : Fin 16, u[k] = 0#8) → x = 1#64) ∧ ((∃ k : Fin 16, u[k] ≠ 0#8) → x = 0#64))

/-- R93: CLRERR clears STICKY and ERR and leaves the flags; its word with any other bit set is
illegal, and sets STICKY. -/
def Obligations.ClrerrClearsTheErrorBits : Prop :=
  decode (word 0x71#8) = .legal .clrerr ∧
  (∀ s : State, exec .clrerr s = .next (done { s with sticky := false })) ∧
  (∀ (w : Word) (s : State), w.extractLsb' 0 8 = 0x71#8 → w ≠ 0x00000071#32 →
    completeCommand w s = .next (failed .illegalCommand s))
end

