-- ==== Sys2Proof/Laws/Decode.lean ====
section
/-! SUPPORT. The field view of command words: a word is its fields, and a row selects a word by
its fields (30_encoding.md R50, R53, R58). -/

namespace Sys2Proof

/-- The fields of `w`, each masked by the field of `m`. -/
def Fields.mask (f m : Fields) : Fields where
  op       := f.op &&& m.op
  d        := f.d &&& m.d
  s        := f.s &&& m.s
  t        := f.t &&& m.t
  imm      := f.imm &&& m.imm
  m        := f.m &&& m.m
  reserved := f.reserved &&& m.reserved

theorem toWord_fieldsOf (w : Word) : (fieldsOf w).toWord = w := by
  apply BitVec.eq_of_getLsbD_eq
  intro i hi
  interval_cases i <;> simp [fieldsOf, Fields.toWord]

theorem fieldsOf_injective {w x : Word} (h : fieldsOf w = fieldsOf x) : w = x := by
  rw [← toWord_fieldsOf w, h, toWord_fieldsOf]

theorem fieldsOf_toWord (f : Fields) : fieldsOf f.toWord = f := by
  obtain ⟨op, d, s, t, imm, m, reserved⟩ := f
  simp only [fieldsOf, Fields.mk.injEq]
  refine ⟨?_, ?_, ?_, ?_, ?_, ?_, ?_⟩ <;> apply BitVec.eq_of_getLsbD_eq <;> intro i hi <;>
    interval_cases i <;> simp [Fields.toWord]

theorem fieldsOf_and (w m : Word) : fieldsOf (w &&& m) = (fieldsOf w).mask (fieldsOf m) := by
  simp only [fieldsOf, Fields.mask, Fields.mk.injEq]
  refine ⟨?_, ?_, ?_, ?_, ?_, ?_, ?_⟩ <;> apply BitVec.eq_of_getLsbD_eq <;> intro i hi <;>
    simp [hi]

/-- A row selects a word exactly when the word's fields, masked, are those of its opcode (R53). -/
theorem Row.selectedBy_iff (r : Row) (w : Word) :
    r.selectedBy w = true ↔ (fieldsOf w).mask (fieldsOf r.mask) = fieldsOf r.op := by
  rw [Row.selectedBy, beq_iff_eq, ← fieldsOf_and]
  exact ⟨fun h => by rw [h], fieldsOf_injective⟩

/-- The encoder lays out exactly the fields of the command. -/
theorem fieldsOf_encode (i : Instr) : fieldsOf (encode i) = i.fields := fieldsOf_toWord _

theorem regBits_regField (w : Word) (lo : Nat) : regBits (regField w lo) = w.extractLsb' lo 3 := by
  apply BitVec.eq_of_toNat_eq
  simp [regBits, regField]

theorem ofBool_fieldM (w : Word) : BitVec.ofBool (fieldM w) = w.extractLsb' 21 1 := by
  apply BitVec.eq_of_getLsbD_eq
  intro i hi
  interval_cases i
  simp [fieldM]

/-- A legal word's command was built by a row that selects it (R54). -/
theorem decode_legal {w : Word} {i : Instr} (h : decode w = .legal i) :
    ∃ r ∈ opcodeMap, r.selectedBy w = true ∧ i = r.build w := by
  unfold decode at h
  split at h
  · rename_i r hr
    exact ⟨r, List.mem_of_find?_eq_some hr, by simpa using List.find?_some hr, by cases h; rfl⟩
  · cases h

/-- A word that no row selects is illegal, and only such a word (R54). -/
theorem decode_illegal_iff (w : Word) :
    (∃ why, decode w = .illegal why) ↔ ∀ r ∈ opcodeMap, r.selectedBy w = false := by
  unfold decode
  split
  · rename_i r hr
    simp only [reduceCtorEq, exists_false, false_iff, not_forall]
    exact ⟨r, List.mem_of_find?_eq_some hr, by simpa using List.find?_some hr⟩
  · rename_i hr
    simpa using hr

end Sys2Proof
end

