-- ==== Sys2Proof/Laws/Operands.lean ====
section
/-! SUPPORT. What the byte-level functions do: byte `i` of each layout and permutation, lanes, and
the cases of normalisation. -/

namespace Sys2Proof.Machine

/-! ### Bytes -/

theorem bytesBe_getElem (x n j : Nat) (h : j < n) :
    (bytesBe x n)[j] = BitVec.ofNat 8 (x / 2 ^ (8 * (n - 1 - j))) := by
  simp [bytesBe]

theorem bytesBe_toNat (x n j : Nat) (h : j < n) :
    ((bytesBe x n)[j]).toNat = x / 256 ^ (n - 1 - j) % 256 := by
  rw [bytesBe_getElem x n j h, BitVec.toNat_ofNat, Nat.pow_mul]

theorem hiNibble_toNat (b : Byte) : (hiNibble b).toNat = b.toNat / 16 := by
  simp [hiNibble, BitVec.extractLsb'_toNat, Nat.shiftRight_eq_div_pow]
  omega

theorem loNibble_toNat (b : Byte) : (loNibble b).toNat = b.toNat % 16 := by
  simp [loNibble, BitVec.extractLsb'_toNat]

/-! ### Hex digits -/

theorem isHexDigit_hexDigit : ∀ n : BitVec 4, isHexDigit (hexDigit n) = true := by decide

theorem hexVal_hexDigit : ∀ n : BitVec 4, hexVal (hexDigit n) = n.toNat := by decide

theorem isHexDigit_hyphen : isHexDigit hyphen = false := by decide

theorem hex2_length (b : Byte) : (hex2 b).length = 2 := rfl

theorem hexs_length (bs : List Byte) : (hexs bs).length = 2 * bs.length := by
  induction bs with
  | nil => rfl
  | cons b bs ih => simp [hexs, hex2_length] at ih ⊢; omega

theorem hexVal_pair (b : Byte) :
    hexVal (hexDigit (hiNibble b)) * 16 + hexVal (hexDigit (loNibble b)) = b.toNat := by
  rw [hexVal_hexDigit, hexVal_hexDigit, hiNibble_toNat, loNibble_toNat]
  omega

/-! ### Normalisation -/

theorem normalise_too_long (b : Buffer) (n : BitVec 7) (h : 64 < n.toNat) : normalise b n = none := by
  simp [normalise, Config.inMax, h]

theorem normalise_raw (b : Buffer) (n : BitVec 7) (h : n.toNat = 16) :
    normalise b n = some (Vector.ofFn fun i : Fin 16 => b[i.val]) := by
  simp [normalise, Config.inMax, h]

/-- Normalisation of a string: it succeeds exactly when 32 hex digits remain. -/
theorem normalise_string (b : Buffer) (n : BitVec 7) (h64 : n.toNat ≤ 64) (h16 : n.toNat ≠ 16) :
    normalise b n =
      if ((stripUrn (b.toList.take n.toNat)).filter isHexDigit).length = 32 then
        some (packHex ((stripUrn (b.toList.take n.toNat)).filter isHexDigit))
      else none := by
  have : ¬ Config.inMax < n.toNat := by simp [Config.inMax]; omega
  simp only [normalise, this, h16, if_false]
  split <;> simp_all

/-! ### Lanes -/

theorem putLanes_getElem {n : Nat} (bs : Vector Byte n) (k : Nat) (w : Word) (i : Nat) (h : i < n) :
    (putLanes bs k w)[i] = if i / 4 = k then lane w (i % 4) else bs[i] := by
  simp [putLanes]

theorem lane_lanesOf {n : Nat} (bs : Vector Byte n) (k j : Nat) (h : 4 * k + 3 < n) (hj : j < 4) :
    lane (lanesOf bs k h) j = bs[4 * k + j] := by
  apply BitVec.eq_of_getLsbD_eq
  intro i hi
  interval_cases j <;> interval_cases i <;> simp [lane, lanesOf]

/-- The lanes of one word make the word. -/
theorem word_ext_lanes {w x : Word} (h : ∀ j, j < 4 → lane w j = lane x j) : w = x := by
  apply BitVec.eq_of_getLsbD_eq
  intro i hi
  have := congrArg (fun b => b.getLsbD (i % 8)) (h (i / 8) (by omega))
  simpa [lane, BitVec.getLsbD_extractLsb', Nat.mod_lt, Nat.div_add_mod] using this

theorem lanesOf_putLanes_same {n : Nat} (bs : Vector Byte n) (k : Nat) (h : 4 * k + 3 < n) (w : Word) :
    lanesOf (putLanes bs k w) k h = w := by
  apply word_ext_lanes
  intro j hj
  rw [lane_lanesOf _ _ _ h hj, putLanes_getElem, if_pos (by omega)]
  congr 1
  omega

theorem lanesOf_putLanes_ne {n : Nat} (bs : Vector Byte n) {k l : Nat} (hl : 4 * l + 3 < n) (w : Word)
    (hne : l ≠ k) : lanesOf (putLanes bs k w) l hl = lanesOf bs l hl := by
  apply word_ext_lanes
  intro j hj
  rw [lane_lanesOf _ _ _ hl hj, lane_lanesOf _ _ _ hl hj, putLanes_getElem, if_neg (by omega)]

@[simp] theorem scalarHalf_putHalf_same (x : Scalar) (high : Bool) (w : Word) :
    scalarHalf (putHalf x high w) high = w := by
  apply BitVec.eq_of_getLsbD_eq
  intro i hi
  cases high <;> interval_cases i <;> simp [scalarHalf, putHalf]

/-- The half that is not written is kept (R39). -/
@[simp] theorem scalarHalf_putHalf_other (x : Scalar) (high : Bool) (w : Word) :
    scalarHalf (putHalf x high w) (!high) = scalarHalf x (!high) := by
  apply BitVec.eq_of_getLsbD_eq
  intro i hi
  cases high <;> interval_cases i <;> simp [scalarHalf, putHalf]

/-! ### A value as its sixteen bytes -/

/-- Every value is sixteen named bytes: the way to evaluate a function of all of them. -/
theorem value_eta (u : Value) : ∃ b0 b1 b2 b3 b4 b5 b6 b7 b8 b9 b10 b11 b12 b13 b14 b15 : Byte,
    u = #v[b0, b1, b2, b3, b4, b5, b6, b7,
      b8, b9, b10, b11, b12, b13, b14, b15] :=
  ⟨u[0], u[1], u[2], u[3], u[4], u[5], u[6], u[7], u[8], u[9], u[10], u[11], u[12], u[13], u[14],
    u[15], by
      apply Vector.ext
      intro i hi
      interval_cases i <;> rfl⟩

theorem slice_all (u : Value) : slice u 0 15 = u.toList := by
  obtain ⟨b0, b1, b2, b3, b4, b5, b6, b7, b8, b9, b10, b11,
    b12, b13, b14, b15, rfl⟩ := value_eta u
  rfl

theorem canon_length (u : Value) : (canon u).length = 36 := by
  obtain ⟨b0, b1, b2, b3, b4, b5, b6, b7, b8, b9, b10, b11,
    b12, b13, b14, b15, rfl⟩ := value_eta u
  rfl

/-! ### What normalisation keeps of a formatted value (R61) -/

theorem filter_hexs (bs : List Byte) : (hexs bs).filter isHexDigit = hexs bs := by
  rw [List.filter_eq_self]
  intro a ha
  simp only [hexs, hex2, List.mem_flatMap, List.mem_cons, List.not_mem_nil, or_false] at ha
  obtain ⟨b, -, rfl | rfl⟩ := ha <;> exact isHexDigit_hexDigit _

theorem filter_canon (u : Value) : (canon u).filter isHexDigit = hexs u.toList := by
  obtain ⟨b0, b1, b2, b3, b4, b5, b6, b7, b8, b9, b10, b11,
    b12, b13, b14, b15, rfl⟩ := value_eta u
  simp only [canon, List.filter_append, filter_hexs]
  rfl

theorem packHex_hexs (u : Value) : packHex (hexs u.toList) = u := by
  obtain ⟨b0, b1, b2, b3, b4, b5, b6, b7, b8, b9, b10, b11,
    b12, b13, b14, b15, rfl⟩ := value_eta u
  apply Vector.ext
  intro i hi
  simp only [packHex, Vector.getElem_ofFn]
  interval_cases i <;> simp [hexs, hex2, hexVal_pair]

/-! ### Stamping (R67, R68) -/

theorem nibbles_toNat (n : BitVec 4) (b : Byte) :
    ((n.setWidth 8 <<< 4) ||| (b &&& 0x0F#8)).toNat = n.toNat * 16 + b.toNat % 16 := by
  have hn : n.toNat < 16 := n.isLt
  have hb : b.toNat &&& 15 = b.toNat % 16 := Nat.and_two_pow_sub_one_eq_mod b.toNat 4
  have hs : (n.toNat % 256) <<< 4 % 256 = n.toNat <<< 4 := by
    rw [Nat.shiftLeft_eq, Nat.shiftLeft_eq]
    omega
  simp only [BitVec.toNat_or, BitVec.toNat_shiftLeft, BitVec.toNat_setWidth, BitVec.toNat_and,
    BitVec.toNat_ofNat, Nat.reducePow, Nat.reduceMod]
  rw [hb, hs, ← Nat.shiftLeft_add_eq_or_of_lt (by omega), Nat.shiftLeft_eq]

theorem withVersion_six (ver : BitVec 4) (u : Value) :
    (withVersion ver u)[6].toNat = ver.toNat * 16 + u[6].toNat % 16 := by
  rw [withVersion, Vector.getElem_set_self]
  exact nibbles_toNat _ _

theorem withVersion_ne (ver : BitVec 4) (u : Value) (k : Nat) (hk : k < 16) (h : k ≠ 6) :
    (withVersion ver u)[k] = u[k] := by
  rw [withVersion, Vector.getElem_set_ne _ _ (Ne.symm h)]

theorem withRfcVariant_eight (u : Value) :
    (withRfcVariant u)[8].toNat = 0x80 + u[8].toNat % 64 := by
  have h : ∀ b : Byte, (0x80#8 ||| (b &&& 0x3F#8)).toNat = 0x80 + b.toNat % 64 := by decide
  rw [withRfcVariant, Vector.getElem_set_self]
  exact h _

theorem withRfcVariant_ne (u : Value) (k : Nat) (hk : k < 16) (h : k ≠ 8) :
    (withRfcVariant u)[k] = u[k] := by
  rw [withRfcVariant, Vector.getElem_set_ne _ _ (Ne.symm h)]

/-! ### Time (R7, R72) -/

theorem epochOffset_toNat : Config.epochOffset.toNat = 122192928000000000 := by decide

theorem gregorianTicks_toNat (x : Scalar) :
    (gregorianTicks x).toNat = (x.toNat + Config.epochOffset.toNat) % 2 ^ 64 :=
  BitVec.toNat_add ..

end Sys2Proof.Machine
end

