-- ==== Sys2Proof/Laws/State.lean ====
section
/-! SUPPORT. One lemma per field per update of State: what the update makes of the field, and of
the registers as commands read them. -/

namespace Sys2Proof.Machine

variable (s : State)

/-! ### setV -/

@[simp] theorem State.setV_v (n : VReg) (u : Value) : (s.setV n u).v = s.v.set n.val u := rfl
@[simp] theorem State.setV_r (n : VReg) (u : Value) : (s.setV n u).r = s.r := rfl
@[simp] theorem State.setV_sticky (n : VReg) (u : Value) : (s.setV n u).sticky = s.sticky := rfl
@[simp] theorem State.setV_err (n : VReg) (u : Value) : (s.setV n u).err = s.err := rfl
@[simp] theorem State.setV_tv (n : VReg) (u : Value) : (s.setV n u).tv = s.tv := rfl
@[simp] theorem State.setV_tn (n : VReg) (u : Value) : (s.setV n u).tn = s.tn := rfl
@[simp] theorem State.setV_tu (n : VReg) (u : Value) : (s.setV n u).tu = s.tu := rfl
@[simp] theorem State.setV_nv (n : VReg) (u : Value) : (s.setV n u).nv = s.nv := rfl
@[simp] theorem State.setV_ilen (n : VReg) (u : Value) : (s.setV n u).ilen = s.ilen := rfl
@[simp] theorem State.setV_ibuf (n : VReg) (u : Value) : (s.setV n u).ibuf = s.ibuf := rfl
@[simp] theorem State.setV_olen (n : VReg) (u : Value) : (s.setV n u).olen = s.olen := rfl
@[simp] theorem State.setV_obuf (n : VReg) (u : Value) : (s.setV n u).obuf = s.obuf := rfl
@[simp] theorem State.setV_inflight (n : VReg) (u : Value) : (s.setV n u).inflight = s.inflight := rfl
@[simp] theorem State.setV_pending (n : VReg) (u : Value) : (s.setV n u).pending = s.pending := rfl
@[simp] theorem State.setV_replies (n : VReg) (u : Value) : (s.setV n u).replies = s.replies := rfl
@[simp] theorem State.setV_busyReads (n : VReg) (u : Value) : (s.setV n u).busyReads = s.busyReads := rfl
@[simp] theorem State.getR_setV (n : VReg) (u : Value) (k : Fin 8) : (s.setV n u).getR k = s.getR k := rfl

/-! ### setR -/

@[simp] theorem State.setR_v (n : RReg) (x : Scalar) : (s.setR n x).v = s.v := rfl
@[simp] theorem State.setR_r (n : RReg) (x : Scalar) : (s.setR n x).r = s.r.set n.val x := rfl
@[simp] theorem State.setR_sticky (n : RReg) (x : Scalar) : (s.setR n x).sticky = s.sticky := rfl
@[simp] theorem State.setR_err (n : RReg) (x : Scalar) : (s.setR n x).err = s.err := rfl
@[simp] theorem State.setR_tv (n : RReg) (x : Scalar) : (s.setR n x).tv = s.tv := rfl
@[simp] theorem State.setR_tn (n : RReg) (x : Scalar) : (s.setR n x).tn = s.tn := rfl
@[simp] theorem State.setR_tu (n : RReg) (x : Scalar) : (s.setR n x).tu = s.tu := rfl
@[simp] theorem State.setR_nv (n : RReg) (x : Scalar) : (s.setR n x).nv = s.nv := rfl
@[simp] theorem State.setR_ilen (n : RReg) (x : Scalar) : (s.setR n x).ilen = s.ilen := rfl
@[simp] theorem State.setR_ibuf (n : RReg) (x : Scalar) : (s.setR n x).ibuf = s.ibuf := rfl
@[simp] theorem State.setR_olen (n : RReg) (x : Scalar) : (s.setR n x).olen = s.olen := rfl
@[simp] theorem State.setR_obuf (n : RReg) (x : Scalar) : (s.setR n x).obuf = s.obuf := rfl
@[simp] theorem State.setR_inflight (n : RReg) (x : Scalar) : (s.setR n x).inflight = s.inflight := rfl
@[simp] theorem State.setR_pending (n : RReg) (x : Scalar) : (s.setR n x).pending = s.pending := rfl
@[simp] theorem State.setR_replies (n : RReg) (x : Scalar) : (s.setR n x).replies = s.replies := rfl
@[simp] theorem State.setR_busyReads (n : RReg) (x : Scalar) : (s.setR n x).busyReads = s.busyReads := rfl
@[simp] theorem State.getV_setR (n : RReg) (x : Scalar) (k : Fin 8) : (s.setR n x).getV k = s.getV k := rfl

/-! ### setTimeFlags -/

@[simp] theorem State.setTimeFlags_v (f : TimeField) : (s.setTimeFlags f).v = s.v := rfl
@[simp] theorem State.setTimeFlags_r (f : TimeField) : (s.setTimeFlags f).r = s.r := rfl
@[simp] theorem State.setTimeFlags_sticky (f : TimeField) : (s.setTimeFlags f).sticky = s.sticky := rfl
@[simp] theorem State.setTimeFlags_err (f : TimeField) : (s.setTimeFlags f).err = s.err := rfl
@[simp] theorem State.setTimeFlags_tv (f : TimeField) : (s.setTimeFlags f).tv = f.valid := rfl
@[simp] theorem State.setTimeFlags_tn (f : TimeField) : (s.setTimeFlags f).tn = f.negative := rfl
@[simp] theorem State.setTimeFlags_tu (f : TimeField) : (s.setTimeFlags f).tu = f.unitMillis := rfl
@[simp] theorem State.setTimeFlags_nv (f : TimeField) : (s.setTimeFlags f).nv = s.nv := rfl
@[simp] theorem State.setTimeFlags_ilen (f : TimeField) : (s.setTimeFlags f).ilen = s.ilen := rfl
@[simp] theorem State.setTimeFlags_ibuf (f : TimeField) : (s.setTimeFlags f).ibuf = s.ibuf := rfl
@[simp] theorem State.setTimeFlags_olen (f : TimeField) : (s.setTimeFlags f).olen = s.olen := rfl
@[simp] theorem State.setTimeFlags_obuf (f : TimeField) : (s.setTimeFlags f).obuf = s.obuf := rfl
@[simp] theorem State.setTimeFlags_inflight (f : TimeField) : (s.setTimeFlags f).inflight = s.inflight := rfl
@[simp] theorem State.setTimeFlags_pending (f : TimeField) : (s.setTimeFlags f).pending = s.pending := rfl
@[simp] theorem State.setTimeFlags_replies (f : TimeField) : (s.setTimeFlags f).replies = s.replies := rfl
@[simp] theorem State.setTimeFlags_busyReads (f : TimeField) : (s.setTimeFlags f).busyReads = s.busyReads := rfl
@[simp] theorem State.getV_setTimeFlags (f : TimeField) (k : Fin 8) : (s.setTimeFlags f).getV k = s.getV k := rfl
@[simp] theorem State.getR_setTimeFlags (f : TimeField) (k : Fin 8) : (s.setTimeFlags f).getR k = s.getR k := rfl

/-! ### setNodeFlag -/

@[simp] theorem State.setNodeFlag_v (b : Bool) : (s.setNodeFlag b).v = s.v := rfl
@[simp] theorem State.setNodeFlag_r (b : Bool) : (s.setNodeFlag b).r = s.r := rfl
@[simp] theorem State.setNodeFlag_sticky (b : Bool) : (s.setNodeFlag b).sticky = s.sticky := rfl
@[simp] theorem State.setNodeFlag_err (b : Bool) : (s.setNodeFlag b).err = s.err := rfl
@[simp] theorem State.setNodeFlag_tv (b : Bool) : (s.setNodeFlag b).tv = s.tv := rfl
@[simp] theorem State.setNodeFlag_tn (b : Bool) : (s.setNodeFlag b).tn = s.tn := rfl
@[simp] theorem State.setNodeFlag_tu (b : Bool) : (s.setNodeFlag b).tu = s.tu := rfl
@[simp] theorem State.setNodeFlag_nv (b : Bool) : (s.setNodeFlag b).nv = b := rfl
@[simp] theorem State.setNodeFlag_ilen (b : Bool) : (s.setNodeFlag b).ilen = s.ilen := rfl
@[simp] theorem State.setNodeFlag_ibuf (b : Bool) : (s.setNodeFlag b).ibuf = s.ibuf := rfl
@[simp] theorem State.setNodeFlag_olen (b : Bool) : (s.setNodeFlag b).olen = s.olen := rfl
@[simp] theorem State.setNodeFlag_obuf (b : Bool) : (s.setNodeFlag b).obuf = s.obuf := rfl
@[simp] theorem State.setNodeFlag_inflight (b : Bool) : (s.setNodeFlag b).inflight = s.inflight := rfl
@[simp] theorem State.setNodeFlag_pending (b : Bool) : (s.setNodeFlag b).pending = s.pending := rfl
@[simp] theorem State.setNodeFlag_replies (b : Bool) : (s.setNodeFlag b).replies = s.replies := rfl
@[simp] theorem State.setNodeFlag_busyReads (b : Bool) : (s.setNodeFlag b).busyReads = s.busyReads := rfl
@[simp] theorem State.getV_setNodeFlag (b : Bool) (k : Fin 8) : (s.setNodeFlag b).getV k = s.getV k := rfl
@[simp] theorem State.getR_setNodeFlag (b : Bool) (k : Fin 8) : (s.setNodeFlag b).getR k = s.getR k := rfl

/-! ### setOut -/

@[simp] theorem State.setOut_v (bs : List Byte) : (s.setOut bs).v = s.v := rfl
@[simp] theorem State.setOut_r (bs : List Byte) : (s.setOut bs).r = s.r := rfl
@[simp] theorem State.setOut_sticky (bs : List Byte) : (s.setOut bs).sticky = s.sticky := rfl
@[simp] theorem State.setOut_err (bs : List Byte) : (s.setOut bs).err = s.err := rfl
@[simp] theorem State.setOut_tv (bs : List Byte) : (s.setOut bs).tv = s.tv := rfl
@[simp] theorem State.setOut_tn (bs : List Byte) : (s.setOut bs).tn = s.tn := rfl
@[simp] theorem State.setOut_tu (bs : List Byte) : (s.setOut bs).tu = s.tu := rfl
@[simp] theorem State.setOut_nv (bs : List Byte) : (s.setOut bs).nv = s.nv := rfl
@[simp] theorem State.setOut_ilen (bs : List Byte) : (s.setOut bs).ilen = s.ilen := rfl
@[simp] theorem State.setOut_ibuf (bs : List Byte) : (s.setOut bs).ibuf = s.ibuf := rfl
@[simp] theorem State.setOut_olen (bs : List Byte) : (s.setOut bs).olen = BitVec.ofNat 7 bs.length := rfl
@[simp] theorem State.setOut_obuf (bs : List Byte) : (s.setOut bs).obuf = paddedBuffer bs := rfl
@[simp] theorem State.setOut_inflight (bs : List Byte) : (s.setOut bs).inflight = s.inflight := rfl
@[simp] theorem State.setOut_pending (bs : List Byte) : (s.setOut bs).pending = s.pending := rfl
@[simp] theorem State.setOut_replies (bs : List Byte) : (s.setOut bs).replies = s.replies := rfl
@[simp] theorem State.setOut_busyReads (bs : List Byte) : (s.setOut bs).busyReads = s.busyReads := rfl
@[simp] theorem State.getV_setOut (bs : List Byte) (k : Fin 8) : (s.setOut bs).getV k = s.getV k := rfl
@[simp] theorem State.getR_setOut (bs : List Byte) (k : Fin 8) : (s.setOut bs).getR k = s.getR k := rfl

/-! ### setSticky -/

@[simp] theorem State.setSticky_v (b : Bool) : (s.setSticky b).v = s.v := rfl
@[simp] theorem State.setSticky_r (b : Bool) : (s.setSticky b).r = s.r := rfl
@[simp] theorem State.setSticky_sticky (b : Bool) : (s.setSticky b).sticky = b := rfl
@[simp] theorem State.setSticky_err (b : Bool) : (s.setSticky b).err = s.err := rfl
@[simp] theorem State.setSticky_tv (b : Bool) : (s.setSticky b).tv = s.tv := rfl
@[simp] theorem State.setSticky_tn (b : Bool) : (s.setSticky b).tn = s.tn := rfl
@[simp] theorem State.setSticky_tu (b : Bool) : (s.setSticky b).tu = s.tu := rfl
@[simp] theorem State.setSticky_nv (b : Bool) : (s.setSticky b).nv = s.nv := rfl
@[simp] theorem State.setSticky_ilen (b : Bool) : (s.setSticky b).ilen = s.ilen := rfl
@[simp] theorem State.setSticky_ibuf (b : Bool) : (s.setSticky b).ibuf = s.ibuf := rfl
@[simp] theorem State.setSticky_olen (b : Bool) : (s.setSticky b).olen = s.olen := rfl
@[simp] theorem State.setSticky_obuf (b : Bool) : (s.setSticky b).obuf = s.obuf := rfl
@[simp] theorem State.setSticky_inflight (b : Bool) : (s.setSticky b).inflight = s.inflight := rfl
@[simp] theorem State.setSticky_pending (b : Bool) : (s.setSticky b).pending = s.pending := rfl
@[simp] theorem State.setSticky_replies (b : Bool) : (s.setSticky b).replies = s.replies := rfl
@[simp] theorem State.setSticky_busyReads (b : Bool) : (s.setSticky b).busyReads = s.busyReads := rfl
@[simp] theorem State.getV_setSticky (b : Bool) (k : Fin 8) : (s.setSticky b).getV k = s.getV k := rfl
@[simp] theorem State.getR_setSticky (b : Bool) (k : Fin 8) : (s.setSticky b).getR k = s.getR k := rfl

/-! ### setIlen -/

@[simp] theorem State.setIlen_v (n : BitVec 7) : (s.setIlen n).v = s.v := rfl
@[simp] theorem State.setIlen_r (n : BitVec 7) : (s.setIlen n).r = s.r := rfl
@[simp] theorem State.setIlen_sticky (n : BitVec 7) : (s.setIlen n).sticky = s.sticky := rfl
@[simp] theorem State.setIlen_err (n : BitVec 7) : (s.setIlen n).err = s.err := rfl
@[simp] theorem State.setIlen_tv (n : BitVec 7) : (s.setIlen n).tv = s.tv := rfl
@[simp] theorem State.setIlen_tn (n : BitVec 7) : (s.setIlen n).tn = s.tn := rfl
@[simp] theorem State.setIlen_tu (n : BitVec 7) : (s.setIlen n).tu = s.tu := rfl
@[simp] theorem State.setIlen_nv (n : BitVec 7) : (s.setIlen n).nv = s.nv := rfl
@[simp] theorem State.setIlen_ilen (n : BitVec 7) : (s.setIlen n).ilen = n := rfl
@[simp] theorem State.setIlen_ibuf (n : BitVec 7) : (s.setIlen n).ibuf = s.ibuf := rfl
@[simp] theorem State.setIlen_olen (n : BitVec 7) : (s.setIlen n).olen = s.olen := rfl
@[simp] theorem State.setIlen_obuf (n : BitVec 7) : (s.setIlen n).obuf = s.obuf := rfl
@[simp] theorem State.setIlen_inflight (n : BitVec 7) : (s.setIlen n).inflight = s.inflight := rfl
@[simp] theorem State.setIlen_pending (n : BitVec 7) : (s.setIlen n).pending = s.pending := rfl
@[simp] theorem State.setIlen_replies (n : BitVec 7) : (s.setIlen n).replies = s.replies := rfl
@[simp] theorem State.setIlen_busyReads (n : BitVec 7) : (s.setIlen n).busyReads = s.busyReads := rfl
@[simp] theorem State.getV_setIlen (n : BitVec 7) (k : Fin 8) : (s.setIlen n).getV k = s.getV k := rfl
@[simp] theorem State.getR_setIlen (n : BitVec 7) (k : Fin 8) : (s.setIlen n).getR k = s.getR k := rfl

/-! ### setIbuf -/

@[simp] theorem State.setIbuf_v (b : Buffer) : (s.setIbuf b).v = s.v := rfl
@[simp] theorem State.setIbuf_r (b : Buffer) : (s.setIbuf b).r = s.r := rfl
@[simp] theorem State.setIbuf_sticky (b : Buffer) : (s.setIbuf b).sticky = s.sticky := rfl
@[simp] theorem State.setIbuf_err (b : Buffer) : (s.setIbuf b).err = s.err := rfl
@[simp] theorem State.setIbuf_tv (b : Buffer) : (s.setIbuf b).tv = s.tv := rfl
@[simp] theorem State.setIbuf_tn (b : Buffer) : (s.setIbuf b).tn = s.tn := rfl
@[simp] theorem State.setIbuf_tu (b : Buffer) : (s.setIbuf b).tu = s.tu := rfl
@[simp] theorem State.setIbuf_nv (b : Buffer) : (s.setIbuf b).nv = s.nv := rfl
@[simp] theorem State.setIbuf_ilen (b : Buffer) : (s.setIbuf b).ilen = s.ilen := rfl
@[simp] theorem State.setIbuf_ibuf (b : Buffer) : (s.setIbuf b).ibuf = b := rfl
@[simp] theorem State.setIbuf_olen (b : Buffer) : (s.setIbuf b).olen = s.olen := rfl
@[simp] theorem State.setIbuf_obuf (b : Buffer) : (s.setIbuf b).obuf = s.obuf := rfl
@[simp] theorem State.setIbuf_inflight (b : Buffer) : (s.setIbuf b).inflight = s.inflight := rfl
@[simp] theorem State.setIbuf_pending (b : Buffer) : (s.setIbuf b).pending = s.pending := rfl
@[simp] theorem State.setIbuf_replies (b : Buffer) : (s.setIbuf b).replies = s.replies := rfl
@[simp] theorem State.setIbuf_busyReads (b : Buffer) : (s.setIbuf b).busyReads = s.busyReads := rfl
@[simp] theorem State.getV_setIbuf (b : Buffer) (k : Fin 8) : (s.setIbuf b).getV k = s.getV k := rfl
@[simp] theorem State.getR_setIbuf (b : Buffer) (k : Fin 8) : (s.setIbuf b).getR k = s.getR k := rfl

/-! ### finish -/

@[simp] theorem State.finish_v (e : ErrorCode) : (s.finish e).v = s.v := rfl
@[simp] theorem State.finish_r (e : ErrorCode) : (s.finish e).r = s.r := rfl
@[simp] theorem State.finish_sticky (e : ErrorCode) : (s.finish e).sticky = s.sticky := rfl
@[simp] theorem State.finish_err (e : ErrorCode) : (s.finish e).err = e := rfl
@[simp] theorem State.finish_tv (e : ErrorCode) : (s.finish e).tv = s.tv := rfl
@[simp] theorem State.finish_tn (e : ErrorCode) : (s.finish e).tn = s.tn := rfl
@[simp] theorem State.finish_tu (e : ErrorCode) : (s.finish e).tu = s.tu := rfl
@[simp] theorem State.finish_nv (e : ErrorCode) : (s.finish e).nv = s.nv := rfl
@[simp] theorem State.finish_ilen (e : ErrorCode) : (s.finish e).ilen = s.ilen := rfl
@[simp] theorem State.finish_ibuf (e : ErrorCode) : (s.finish e).ibuf = s.ibuf := rfl
@[simp] theorem State.finish_olen (e : ErrorCode) : (s.finish e).olen = s.olen := rfl
@[simp] theorem State.finish_obuf (e : ErrorCode) : (s.finish e).obuf = s.obuf := rfl
@[simp] theorem State.finish_inflight (e : ErrorCode) : (s.finish e).inflight = none := rfl
@[simp] theorem State.finish_pending (e : ErrorCode) : (s.finish e).pending = s.pending := rfl
@[simp] theorem State.finish_replies (e : ErrorCode) : (s.finish e).replies = s.replies := rfl
@[simp] theorem State.finish_busyReads (e : ErrorCode) : (s.finish e).busyReads = s.busyReads := rfl
@[simp] theorem State.getV_finish (e : ErrorCode) (k : Fin 8) : (s.finish e).getV k = s.getV k := rfl
@[simp] theorem State.getR_finish (e : ErrorCode) (k : Fin 8) : (s.finish e).getR k = s.getR k := rfl

/-! ### issue -/

@[simp] theorem State.issue_v (w : Word) : (s.issue w).v = s.v := rfl
@[simp] theorem State.issue_r (w : Word) : (s.issue w).r = s.r := rfl
@[simp] theorem State.issue_sticky (w : Word) : (s.issue w).sticky = s.sticky := rfl
@[simp] theorem State.issue_err (w : Word) : (s.issue w).err = s.err := rfl
@[simp] theorem State.issue_tv (w : Word) : (s.issue w).tv = s.tv := rfl
@[simp] theorem State.issue_tn (w : Word) : (s.issue w).tn = s.tn := rfl
@[simp] theorem State.issue_tu (w : Word) : (s.issue w).tu = s.tu := rfl
@[simp] theorem State.issue_nv (w : Word) : (s.issue w).nv = s.nv := rfl
@[simp] theorem State.issue_ilen (w : Word) : (s.issue w).ilen = s.ilen := rfl
@[simp] theorem State.issue_ibuf (w : Word) : (s.issue w).ibuf = s.ibuf := rfl
@[simp] theorem State.issue_olen (w : Word) : (s.issue w).olen = s.olen := rfl
@[simp] theorem State.issue_obuf (w : Word) : (s.issue w).obuf = s.obuf := rfl
@[simp] theorem State.issue_inflight (w : Word) : (s.issue w).inflight = some w := rfl
@[simp] theorem State.issue_pending (w : Word) : (s.issue w).pending = s.pending := rfl
@[simp] theorem State.issue_replies (w : Word) : (s.issue w).replies = s.replies := rfl
@[simp] theorem State.issue_busyReads (w : Word) : (s.issue w).busyReads = s.busyReads := rfl
@[simp] theorem State.getV_issue (w : Word) (k : Fin 8) : (s.issue w).getV k = s.getV k := rfl
@[simp] theorem State.getR_issue (w : Word) (k : Fin 8) : (s.issue w).getR k = s.getR k := rfl

/-! ### loadCommand -/

@[simp] theorem State.loadCommand_v (w : Word) : (s.loadCommand w).v = s.v := rfl
@[simp] theorem State.loadCommand_r (w : Word) : (s.loadCommand w).r = s.r := rfl
@[simp] theorem State.loadCommand_sticky (w : Word) : (s.loadCommand w).sticky = s.sticky := rfl
@[simp] theorem State.loadCommand_err (w : Word) : (s.loadCommand w).err = s.err := rfl
@[simp] theorem State.loadCommand_tv (w : Word) : (s.loadCommand w).tv = s.tv := rfl
@[simp] theorem State.loadCommand_tn (w : Word) : (s.loadCommand w).tn = s.tn := rfl
@[simp] theorem State.loadCommand_tu (w : Word) : (s.loadCommand w).tu = s.tu := rfl
@[simp] theorem State.loadCommand_nv (w : Word) : (s.loadCommand w).nv = s.nv := rfl
@[simp] theorem State.loadCommand_ilen (w : Word) : (s.loadCommand w).ilen = s.ilen := rfl
@[simp] theorem State.loadCommand_ibuf (w : Word) : (s.loadCommand w).ibuf = s.ibuf := rfl
@[simp] theorem State.loadCommand_olen (w : Word) : (s.loadCommand w).olen = s.olen := rfl
@[simp] theorem State.loadCommand_obuf (w : Word) : (s.loadCommand w).obuf = s.obuf := rfl
@[simp] theorem State.loadCommand_inflight (w : Word) : (s.loadCommand w).inflight = some w := rfl
@[simp] theorem State.loadCommand_pending (w : Word) : (s.loadCommand w).pending = [] := rfl
@[simp] theorem State.loadCommand_replies (w : Word) : (s.loadCommand w).replies = s.replies := rfl
@[simp] theorem State.loadCommand_busyReads (w : Word) : (s.loadCommand w).busyReads = s.busyReads := rfl
@[simp] theorem State.getV_loadCommand (w : Word) (k : Fin 8) : (s.loadCommand w).getV k = s.getV k := rfl
@[simp] theorem State.getR_loadCommand (w : Word) (k : Fin 8) : (s.loadCommand w).getR k = s.getR k := rfl

/-! ### setPending -/

@[simp] theorem State.setPending_v (p : List HostInput) : (s.setPending p).v = s.v := rfl
@[simp] theorem State.setPending_r (p : List HostInput) : (s.setPending p).r = s.r := rfl
@[simp] theorem State.setPending_sticky (p : List HostInput) : (s.setPending p).sticky = s.sticky := rfl
@[simp] theorem State.setPending_err (p : List HostInput) : (s.setPending p).err = s.err := rfl
@[simp] theorem State.setPending_tv (p : List HostInput) : (s.setPending p).tv = s.tv := rfl
@[simp] theorem State.setPending_tn (p : List HostInput) : (s.setPending p).tn = s.tn := rfl
@[simp] theorem State.setPending_tu (p : List HostInput) : (s.setPending p).tu = s.tu := rfl
@[simp] theorem State.setPending_nv (p : List HostInput) : (s.setPending p).nv = s.nv := rfl
@[simp] theorem State.setPending_ilen (p : List HostInput) : (s.setPending p).ilen = s.ilen := rfl
@[simp] theorem State.setPending_ibuf (p : List HostInput) : (s.setPending p).ibuf = s.ibuf := rfl
@[simp] theorem State.setPending_olen (p : List HostInput) : (s.setPending p).olen = s.olen := rfl
@[simp] theorem State.setPending_obuf (p : List HostInput) : (s.setPending p).obuf = s.obuf := rfl
@[simp] theorem State.setPending_inflight (p : List HostInput) : (s.setPending p).inflight = s.inflight := rfl
@[simp] theorem State.setPending_pending (p : List HostInput) : (s.setPending p).pending = p := rfl
@[simp] theorem State.setPending_replies (p : List HostInput) : (s.setPending p).replies = s.replies := rfl
@[simp] theorem State.setPending_busyReads (p : List HostInput) : (s.setPending p).busyReads = s.busyReads := rfl
@[simp] theorem State.getV_setPending (p : List HostInput) (k : Fin 8) : (s.setPending p).getV k = s.getV k := rfl
@[simp] theorem State.getR_setPending (p : List HostInput) (k : Fin 8) : (s.setPending p).getR k = s.getR k := rfl

/-! ### reply -/

@[simp] theorem State.reply_v (x : Reply) : (s.reply x).v = s.v := rfl
@[simp] theorem State.reply_r (x : Reply) : (s.reply x).r = s.r := rfl
@[simp] theorem State.reply_sticky (x : Reply) : (s.reply x).sticky = s.sticky := rfl
@[simp] theorem State.reply_err (x : Reply) : (s.reply x).err = s.err := rfl
@[simp] theorem State.reply_tv (x : Reply) : (s.reply x).tv = s.tv := rfl
@[simp] theorem State.reply_tn (x : Reply) : (s.reply x).tn = s.tn := rfl
@[simp] theorem State.reply_tu (x : Reply) : (s.reply x).tu = s.tu := rfl
@[simp] theorem State.reply_nv (x : Reply) : (s.reply x).nv = s.nv := rfl
@[simp] theorem State.reply_ilen (x : Reply) : (s.reply x).ilen = s.ilen := rfl
@[simp] theorem State.reply_ibuf (x : Reply) : (s.reply x).ibuf = s.ibuf := rfl
@[simp] theorem State.reply_olen (x : Reply) : (s.reply x).olen = s.olen := rfl
@[simp] theorem State.reply_obuf (x : Reply) : (s.reply x).obuf = s.obuf := rfl
@[simp] theorem State.reply_inflight (x : Reply) : (s.reply x).inflight = s.inflight := rfl
@[simp] theorem State.reply_pending (x : Reply) : (s.reply x).pending = s.pending := rfl
@[simp] theorem State.reply_replies (x : Reply) : (s.reply x).replies = s.replies ++ [x] := rfl
@[simp] theorem State.reply_busyReads (x : Reply) : (s.reply x).busyReads = s.busyReads := rfl
@[simp] theorem State.getV_reply (x : Reply) (k : Fin 8) : (s.reply x).getV k = s.getV k := rfl
@[simp] theorem State.getR_reply (x : Reply) (k : Fin 8) : (s.reply x).getR k = s.getR k := rfl

/-! ### countBusyRead -/

@[simp] theorem State.countBusyRead_v : (s.countBusyRead).v = s.v := rfl
@[simp] theorem State.countBusyRead_r : (s.countBusyRead).r = s.r := rfl
@[simp] theorem State.countBusyRead_sticky : (s.countBusyRead).sticky = s.sticky := rfl
@[simp] theorem State.countBusyRead_err : (s.countBusyRead).err = s.err := rfl
@[simp] theorem State.countBusyRead_tv : (s.countBusyRead).tv = s.tv := rfl
@[simp] theorem State.countBusyRead_tn : (s.countBusyRead).tn = s.tn := rfl
@[simp] theorem State.countBusyRead_tu : (s.countBusyRead).tu = s.tu := rfl
@[simp] theorem State.countBusyRead_nv : (s.countBusyRead).nv = s.nv := rfl
@[simp] theorem State.countBusyRead_ilen : (s.countBusyRead).ilen = s.ilen := rfl
@[simp] theorem State.countBusyRead_ibuf : (s.countBusyRead).ibuf = s.ibuf := rfl
@[simp] theorem State.countBusyRead_olen : (s.countBusyRead).olen = s.olen := rfl
@[simp] theorem State.countBusyRead_obuf : (s.countBusyRead).obuf = s.obuf := rfl
@[simp] theorem State.countBusyRead_inflight : (s.countBusyRead).inflight = s.inflight := rfl
@[simp] theorem State.countBusyRead_pending : (s.countBusyRead).pending = s.pending := rfl
@[simp] theorem State.countBusyRead_replies : (s.countBusyRead).replies = s.replies := rfl
@[simp] theorem State.countBusyRead_busyReads : (s.countBusyRead).busyReads = s.busyReads + 1 := rfl
@[simp] theorem State.getV_countBusyRead (k : Fin 8) : (s.countBusyRead).getV k = s.getV k := rfl
@[simp] theorem State.getR_countBusyRead (k : Fin 8) : (s.countBusyRead).getR k = s.getR k := rfl

/-! ### resetBlock -/

@[simp] theorem State.resetBlock_v : (s.resetBlock).v = State.reset.v := rfl
@[simp] theorem State.resetBlock_r : (s.resetBlock).r = State.reset.r := rfl
@[simp] theorem State.resetBlock_sticky : (s.resetBlock).sticky = State.reset.sticky := rfl
@[simp] theorem State.resetBlock_err : (s.resetBlock).err = State.reset.err := rfl
@[simp] theorem State.resetBlock_tv : (s.resetBlock).tv = State.reset.tv := rfl
@[simp] theorem State.resetBlock_tn : (s.resetBlock).tn = State.reset.tn := rfl
@[simp] theorem State.resetBlock_tu : (s.resetBlock).tu = State.reset.tu := rfl
@[simp] theorem State.resetBlock_nv : (s.resetBlock).nv = State.reset.nv := rfl
@[simp] theorem State.resetBlock_ilen : (s.resetBlock).ilen = State.reset.ilen := rfl
@[simp] theorem State.resetBlock_ibuf : (s.resetBlock).ibuf = State.reset.ibuf := rfl
@[simp] theorem State.resetBlock_olen : (s.resetBlock).olen = State.reset.olen := rfl
@[simp] theorem State.resetBlock_obuf : (s.resetBlock).obuf = State.reset.obuf := rfl
@[simp] theorem State.resetBlock_inflight : (s.resetBlock).inflight = State.reset.inflight := rfl
@[simp] theorem State.resetBlock_pending : (s.resetBlock).pending = s.pending := rfl
@[simp] theorem State.resetBlock_replies : (s.resetBlock).replies = s.replies := rfl
@[simp] theorem State.resetBlock_busyReads : (s.resetBlock).busyReads = s.busyReads := rfl

end Sys2Proof.Machine
end

