-- ==== Sys2Proof/Laws/Ops.lean ====
section
/-! SUPPORT. What each shared operation over registers, buffers and the end of a command can do. -/

namespace Sys2Proof.Machine

variable (s t : State)

/-! ### Registers -/

theorem State.getV_eq (n : VReg) : s.getV n = s.v[n] := rfl

theorem State.getR_eq (n : RReg) : s.getR n = s.r[n] := rfl

@[simp] theorem State.getV_setV_same (n : VReg) (u : Value) : (s.setV n u).getV n = u := by
  simp [State.getV]

theorem State.getV_setV_ne {n k : VReg} (h : n ≠ k) (u : Value) :
    (s.setV n u).getV k = s.getV k := by
  have : n.val ≠ k.val := fun e => h (Fin.ext e)
  simp [State.getV, Vector.getElem_set_ne, this]

@[simp] theorem State.getR_setR_same (n : RReg) (x : Scalar) : (s.setR n x).getR n = x := by
  simp [State.getR]

theorem State.getR_setR_ne {n k : RReg} (h : n ≠ k) (x : Scalar) :
    (s.setR n x).getR k = s.getR k := by
  have : n.val ≠ k.val := fun e => h (Fin.ext e)
  simp [State.getR, Vector.getElem_set_ne, this]

/-! ### Output -/

@[simp] theorem paddedBuffer_getElem (bs : List Byte) (k : Nat) (h : k < 64) :
    (paddedBuffer bs)[k] = bs.getD k 0#8 := by
  simp [paddedBuffer]

theorem paddedBuffer_zero_from (bs : List Byte) (k : Nat) (h : k < 64) (hk : bs.length ≤ k) :
    (paddedBuffer bs)[k] = 0#8 := by
  simp [List.getElem?_eq_none hk]

/-! ### The end of a command -/

theorem succeed_eq :
    succeed s = .next { s with err := .noError, inflight := none } := rfl

theorem raise_eq (e : ErrorCode) :
    raise e s = .next { s with err := e, sticky := true, inflight := none } := rfl

theorem succeed_next_iff : succeed s = .next t ↔ t = s.finish .noError := by
  simp [succeed, eq_comm]

theorem raise_next_iff (e : ErrorCode) :
    raise e s = .next t ↔ t = (s.setSticky true).finish e := by
  simp [raise, eq_comm]

end Sys2Proof.Machine
end

