-- ==== Sys2Proof/Laws/HostPort.lean ====
section
/-! SUPPORT. The register map and the accesses: which access is legal, where each region stands,
and what a read and a write of a region do. -/

namespace Sys2Proof.Machine

theorem Access.legal_iff (a : Access) :
    a.legal = true ↔ a.size = 2#2 ∧ a.addr.toNat % 4 = 0 := by
  have : (BitVec.extractLsb' 0 2 a.addr = 0#2) ↔ a.addr.toNat % 4 = 0 := by
    rw [← BitVec.toNat_inj]
    simp [BitVec.extractLsb'_toNat]
  simp only [Access.legal, Bool.and_eq_true, beq_iff_eq, this]

/-! ### The register map (20_memory.md R35) -/

theorem regionOf_eq_cmd (a : BitVec 9) : regionOf a = .cmd ↔ a = 0x000#9 := by
  rw [← BitVec.toNat_inj]
  unfold regionOf
  simp only
  split_ifs <;> simp_all

theorem regionOf_eq_status (a : BitVec 9) : regionOf a = .status ↔ a = 0x004#9 := by
  rw [← BitVec.toNat_inj]
  unfold regionOf
  simp only
  split_ifs <;> simp_all

theorem regionOf_scalarLow :
    ∀ n : Fin 8, regionOf (BitVec.ofNat 9 (0x040 + 8 * n.val)) = .scalarWord n false := by decide

theorem regionOf_scalarHigh :
    ∀ n : Fin 8, regionOf (BitVec.ofNat 9 (0x044 + 8 * n.val)) = .scalarWord n true := by decide

theorem regionOf_value : ∀ (n : Fin 8) (k : Fin 4),
    regionOf (BitVec.ofNat 9 (0x080 + 16 * n.val + 4 * k.val)) = .valueWord n k := by decide

theorem regionOf_ibuf : ∀ k : Fin 16,
    regionOf (BitVec.ofNat 9 (0x100 + 4 * k.val)) = .ibufWord k := by decide

theorem regionOf_obuf : ∀ k : Fin 16,
    regionOf (BitVec.ofNat 9 (0x140 + 4 * k.val)) = .obufWord k := by decide

theorem regionOf_reserved (a : BitVec 9)
    (h : (0x014 ≤ a.toNat ∧ a.toNat < 0x040) ∨ 0x180 ≤ a.toNat) : regionOf a = .reserved := by
  unfold regionOf
  simp only
  split_ifs <;> first | rfl | omega

/-- The offset of a region that is not reserved. -/
def Region.offset : Region → Nat
  | .cmd => 0x000
  | .status => 0x004
  | .ilen => 0x008
  | .olen => 0x00C
  | .id => 0x010
  | .scalarWord n high => 0x040 + 8 * n.val + if high then 4 else 0
  | .valueWord n k => 0x080 + 16 * n.val + 4 * k.val
  | .ibufWord k => 0x100 + 4 * k.val
  | .obufWord k => 0x140 + 4 * k.val
  | .reserved => 0

theorem offset_regionOf (a : BitVec 9) (h4 : a.toNat % 4 = 0) (hr : regionOf a ≠ .reserved) :
    (regionOf a).offset = a.toNat := by
  have hlt := a.isLt
  generalize e : regionOf a = x at *
  unfold regionOf at e
  simp only at e
  split_ifs at e <;> subst e <;> simp only [Region.offset, Fin.ofNat] <;>
    first | omega | (split_ifs <;> simp_all <;> omega) | exact absurd rfl hr

/-- Two aligned offsets of one region are the same offset, but for reserved ones. -/
theorem regionOf_injective {a b : BitVec 9} (ha : a.toNat % 4 = 0) (hb : b.toNat % 4 = 0)
    (h : regionOf a = regionOf b) (hr : regionOf a ≠ .reserved) : a = b := by
  apply BitVec.eq_of_toNat_eq
  rw [← offset_regionOf a ha hr, h, offset_regionOf b hb (h ▸ hr)]

theorem Access.isStatusRead_iff (a : Access) :
    a.isStatusRead = true ↔ a.we = false ∧ a.size = 2#2 ∧ a.addr = 0x004#9 := by
  simp only [Access.isStatusRead, Bool.and_eq_true, Access.legal_iff, beq_iff_eq,
    regionOf_eq_status, Bool.not_eq_true']
  constructor
  · rintro ⟨⟨⟨h1, -⟩, h3⟩, h4⟩
    exact ⟨h3, h1, h4⟩
  · rintro ⟨h3, h1, h4⟩
    exact ⟨⟨⟨h1, by simp [h4]⟩, h3⟩, h4⟩

/-! ### Lanes and halves -/

theorem scalarHalf_low (x : Scalar) : (scalarHalf x false).toNat = x.toNat % 2 ^ 32 := by
  simp [scalarHalf, BitVec.extractLsb'_toNat]

theorem scalarHalf_high (x : Scalar) : (scalarHalf x true).toNat = x.toNat / 2 ^ 32 := by
  simp [scalarHalf, BitVec.extractLsb'_toNat, Nat.shiftRight_eq_div_pow]
  omega

/-- The two halves make the scalar. -/
theorem scalar_ext_halves {x y : Scalar} (h : ∀ b, scalarHalf x b = scalarHalf y b) : x = y := by
  apply BitVec.eq_of_toNat_eq
  have l := congrArg BitVec.toNat (h false)
  have u := congrArg BitVec.toNat (h true)
  rw [scalarHalf_low, scalarHalf_low] at l
  rw [scalarHalf_high, scalarHalf_high] at u
  omega

theorem putLanes_putLanes {n : Nat} (bs : Vector Byte n) (k : Nat) (w : Word) :
    putLanes (putLanes bs k w) k w = putLanes bs k w := by
  ext i hi
  simp only [putLanes_getElem]
  split <;> rfl

end Sys2Proof.Machine
end

