-- ==== Sys2Proof/Laws/PerInstr.lean ====
section
/-! SUPPORT. Statements about every command as syntax, one lemma per constructor (LAWS.json). -/

namespace Sys2Proof.Laws

/-- The fields a command is encoded from pass every check of R54: its opcode is assigned, its
reserved bits and unused fields are 0. -/
def FieldsAreLegal.Statement (i : Instr) : Prop := i.wf

theorem FieldsAreLegal.parse (d : Fin 8) : FieldsAreLegal.Statement (.parse d) := by
  simp [FieldsAreLegal.Statement, Instr.wf, Fields.wf, Fields.check, Instr.fields, Instr.opcode, usesOf]

theorem FieldsAreLegal.fmt (src : Fin 8) : FieldsAreLegal.Statement (.fmt src) := by
  simp [FieldsAreLegal.Statement, Instr.wf, Fields.wf, Fields.check, Instr.fields, Instr.opcode, usesOf]

theorem FieldsAreLegal.hex (src : Fin 8) : FieldsAreLegal.Statement (.hex src) := by
  simp [FieldsAreLegal.Statement, Instr.wf, Fields.wf, Fields.check, Instr.fields, Instr.opcode, usesOf]

theorem FieldsAreLegal.urn (src : Fin 8) : FieldsAreLegal.Statement (.urn src) := by
  simp [FieldsAreLegal.Statement, Instr.wf, Fields.wf, Fields.check, Instr.fields, Instr.opcode, usesOf]

theorem FieldsAreLegal.raw (src : Fin 8) : FieldsAreLegal.Statement (.raw src) := by
  simp [FieldsAreLegal.Statement, Instr.wf, Fields.wf, Fields.check, Instr.fields, Instr.opcode, usesOf]

theorem FieldsAreLegal.setver (d : Fin 8) (src : Fin 8) (imm : BitVec 4) : FieldsAreLegal.Statement (.setver d src imm) := by
  simp [FieldsAreLegal.Statement, Instr.wf, Fields.wf, Fields.check, Instr.fields, Instr.opcode, usesOf]

theorem FieldsAreLegal.setvar (d : Fin 8) (src : Fin 8) : FieldsAreLegal.Statement (.setvar d src) := by
  simp [FieldsAreLegal.Statement, Instr.wf, Fields.wf, Fields.check, Instr.fields, Instr.opcode, usesOf]

theorem FieldsAreLegal.stamp (d : Fin 8) (src : Fin 8) (imm : BitVec 4) : FieldsAreLegal.Statement (.stamp d src imm) := by
  simp [FieldsAreLegal.Statement, Instr.wf, Fields.wf, Fields.check, Instr.fields, Instr.opcode, usesOf]

theorem FieldsAreLegal.getver (d : Fin 8) (src : Fin 8) : FieldsAreLegal.Statement (.getver d src) := by
  simp [FieldsAreLegal.Statement, Instr.wf, Fields.wf, Fields.check, Instr.fields, Instr.opcode, usesOf]

theorem FieldsAreLegal.getvar (d : Fin 8) (src : Fin 8) : FieldsAreLegal.Statement (.getvar d src) := by
  simp [FieldsAreLegal.Statement, Instr.wf, Fields.wf, Fields.check, Instr.fields, Instr.opcode, usesOf]

theorem FieldsAreLegal.packv1 (d : Fin 8) (src : Fin 8) (t : Fin 8) (m : Bool) : FieldsAreLegal.Statement (.packv1 d src t m) := by
  simp [FieldsAreLegal.Statement, Instr.wf, Fields.wf, Fields.check, Instr.fields, Instr.opcode, usesOf]

theorem FieldsAreLegal.packv6 (d : Fin 8) (src : Fin 8) (t : Fin 8) (m : Bool) : FieldsAreLegal.Statement (.packv6 d src t m) := by
  simp [FieldsAreLegal.Statement, Instr.wf, Fields.wf, Fields.check, Instr.fields, Instr.opcode, usesOf]

theorem FieldsAreLegal.packv7 (d : Fin 8) (src : Fin 8) (t : Fin 8) : FieldsAreLegal.Statement (.packv7 d src t) := by
  simp [FieldsAreLegal.Statement, Instr.wf, Fields.wf, Fields.check, Instr.fields, Instr.opcode, usesOf]

theorem FieldsAreLegal.gettime (d : Fin 8) (src : Fin 8) : FieldsAreLegal.Statement (.gettime d src) := by
  simp [FieldsAreLegal.Statement, Instr.wf, Fields.wf, Fields.check, Instr.fields, Instr.opcode, usesOf]

theorem FieldsAreLegal.getnode (d : Fin 8) (src : Fin 8) : FieldsAreLegal.Statement (.getnode d src) := by
  simp [FieldsAreLegal.Statement, Instr.wf, Fields.wf, Fields.check, Instr.fields, Instr.opcode, usesOf]

theorem FieldsAreLegal.nodehex (src : Fin 8) : FieldsAreLegal.Statement (.nodehex src) := by
  simp [FieldsAreLegal.Statement, Instr.wf, Fields.wf, Fields.check, Instr.fields, Instr.opcode, usesOf]

theorem FieldsAreLegal.tofor (d : Fin 8) (src : Fin 8) : FieldsAreLegal.Statement (.tofor d src) := by
  simp [FieldsAreLegal.Statement, Instr.wf, Fields.wf, Fields.check, Instr.fields, Instr.opcode, usesOf]

theorem FieldsAreLegal.fromfor (d : Fin 8) (src : Fin 8) : FieldsAreLegal.Statement (.fromfor d src) := by
  simp [FieldsAreLegal.Statement, Instr.wf, Fields.wf, Fields.check, Instr.fields, Instr.opcode, usesOf]

theorem FieldsAreLegal.forin (d : Fin 8) : FieldsAreLegal.Statement (.forin d) := by
  simp [FieldsAreLegal.Statement, Instr.wf, Fields.wf, Fields.check, Instr.fields, Instr.opcode, usesOf]

theorem FieldsAreLegal.order (d : Fin 8) (src : Fin 8) : FieldsAreLegal.Statement (.order d src) := by
  simp [FieldsAreLegal.Statement, Instr.wf, Fields.wf, Fields.check, Instr.fields, Instr.opcode, usesOf]

theorem FieldsAreLegal.nil (d : Fin 8) : FieldsAreLegal.Statement (.nil d) := by
  simp [FieldsAreLegal.Statement, Instr.wf, Fields.wf, Fields.check, Instr.fields, Instr.opcode, usesOf]

theorem FieldsAreLegal.isnil (d : Fin 8) (src : Fin 8) : FieldsAreLegal.Statement (.isnil d src) := by
  simp [FieldsAreLegal.Statement, Instr.wf, Fields.wf, Fields.check, Instr.fields, Instr.opcode, usesOf]

theorem FieldsAreLegal.isnilin (d : Fin 8) : FieldsAreLegal.Statement (.isnilin d) := by
  simp [FieldsAreLegal.Statement, Instr.wf, Fields.wf, Fields.check, Instr.fields, Instr.opcode, usesOf]

theorem FieldsAreLegal.valid (d : Fin 8) : FieldsAreLegal.Statement (.valid d) := by
  simp [FieldsAreLegal.Statement, Instr.wf, Fields.wf, Fields.check, Instr.fields, Instr.opcode, usesOf]

theorem FieldsAreLegal.cmp (d : Fin 8) (src : Fin 8) (t : Fin 8) : FieldsAreLegal.Statement (.cmp d src t) := by
  simp [FieldsAreLegal.Statement, Instr.wf, Fields.wf, Fields.check, Instr.fields, Instr.opcode, usesOf]

theorem FieldsAreLegal.movv (d : Fin 8) (src : Fin 8) : FieldsAreLegal.Statement (.movv d src) := by
  simp [FieldsAreLegal.Statement, Instr.wf, Fields.wf, Fields.check, Instr.fields, Instr.opcode, usesOf]

theorem FieldsAreLegal.clrerr : FieldsAreLegal.Statement (.clrerr) := by
  simp [FieldsAreLegal.Statement, Instr.wf, Fields.wf, Fields.check, Instr.fields, Instr.opcode, usesOf]

end Sys2Proof.Laws
end

