-- ==== Sys2Proof/Laws/Step.lean ====
section
/-! SUPPORT. What a step, a completion and a host access can do: the cases, said once. -/

namespace Sys2Proof.Machine

/-- A completion runs its row's meaning, or raises ILLEGAL_COMMAND. -/
theorem completeCommand_cases (w : Word) (s : State) :
    (∃ i, decode w = .legal i ∧ completeCommand w s = exec i s) ∨
    (∃ why, decode w = .illegal why ∧ completeCommand w s = raise .illegalCommand s) := by
  unfold completeCommand
  split
  · exact .inl ⟨_, ‹_›, rfl⟩
  · exact .inr ⟨_, ‹_›, rfl⟩

/-- An access is a bus error, a write or a read. -/
theorem performAccess_cases (a : Access) (s : State) :
    (a.legal = false ∧ performAccess a s = s.reply .busError) ∨
    (a.legal = true ∧ a.we = true ∧
      performAccess a s = (writeWindow s a.addr a.wdata).reply .written) ∨
    (a.legal = true ∧ a.we = false ∧
      performAccess a s = s.reply (.data (readWindow s a.addr))) := by
  unfold performAccess
  cases a.legal <;> cases a.we <;> simp

/-- The cases of a step: a reset; at rest, nothing or an access; with a command in flight, a
`STATUS` read answered first, or the completion (after a `STATUS` read that lost the free choice,
or with none next). -/
theorem step_cases (s : State) :
    (∃ a rest, s.pending = .reset a :: rest ∧ step s = .next (s.resetBlock.setPending rest)) ∨
    (s.inflight = none ∧ s.pending = [] ∧ step s = .next s) ∨
    (∃ a rest, s.inflight = none ∧ s.pending = .access a :: rest ∧
      step s = .next (performAccess a (s.setPending rest))) ∨
    (∃ w a rest, s.inflight = some w ∧ s.pending = .access a :: rest ∧ a.isStatusRead = true ∧
      Config.statusReadSeesBusy s.busyReads = true ∧
      step s = .next ((performAccess a (s.setPending rest)).countBusyRead)) ∨
    (∃ w a rest, s.inflight = some w ∧ s.pending = .access a :: rest ∧ a.isStatusRead = true ∧
      Config.statusReadSeesBusy s.busyReads = false ∧
      step s = completeCommand w s.countBusyRead) ∨
    (∃ w, s.inflight = some w ∧
      (s.pending = [] ∨ ∃ a rest, s.pending = .access a :: rest ∧ a.isStatusRead = false) ∧
      step s = completeCommand w s) := by
  cases hi : s.inflight with
  | none =>
    cases hp : s.pending with
    | nil => simp [step, fetch, hi, restStep, hp]
    | cons x rest => cases x <;> simp [step, fetch, hi, restStep, hp]
  | some w =>
    cases hp : s.pending with
    | nil => simp [step, fetch, hi, busyStep, hp]
    | cons x rest =>
      cases x with
      | reset a => simp [step, fetch, hi, busyStep, hp]
      | access a =>
        cases hs : a.isStatusRead <;> cases hc : Config.statusReadSeesBusy s.busyReads <;>
          simp [step, fetch, hi, busyStep, hp, hs, hc]

/-! ### What an access leaves alone -/

/-- A write to the window leaves the flags, the errors, the output and the host's fields. -/
theorem writeWindow_frame (s : State) (a : BitVec 9) (w : Word) :
    let t := writeWindow s a w
    t.sticky = s.sticky ∧ t.err = s.err ∧ t.tv = s.tv ∧ t.tn = s.tn ∧ t.tu = s.tu ∧ t.nv = s.nv ∧
    t.olen = s.olen ∧ t.obuf = s.obuf ∧ t.pending = s.pending ∧ t.replies = s.replies ∧
    t.busyReads = s.busyReads := by
  unfold writeWindow
  cases regionOf a <;> simp [writeRegion]

/-- So does an access, which answers once. -/
theorem performAccess_frame (s : State) (a : Access) :
    let t := performAccess a s
    t.sticky = s.sticky ∧ t.err = s.err ∧ t.tv = s.tv ∧ t.tn = s.tn ∧ t.tu = s.tu ∧ t.nv = s.nv ∧
    t.olen = s.olen ∧ t.obuf = s.obuf ∧ t.pending = s.pending ∧
    (∃ x, t.replies = s.replies ++ [x]) ∧ t.busyReads = s.busyReads := by
  have h := writeWindow_frame s a.addr a.wdata
  rcases performAccess_cases a s with ⟨_, e⟩ | ⟨_, _, e⟩ | ⟨_, _, e⟩ <;> simp_all

end Sys2Proof.Machine
end

