-- ==== Sys2Proof/Laws/Safety.lean ====
section
/-! SUPPORT. The invariant depends on seven fields only; runs unfold one step at a time. -/

namespace Sys2Proof.Machine

/-- States that agree on the error, the output and the time flags satisfy the invariant together. -/
theorem State.Inv_congr {s t : State} (he : t.err = s.err) (hs : t.sticky = s.sticky)
    (hl : t.olen = s.olen) (ho : t.obuf = s.obuf) (h1 : t.tv = s.tv) (h2 : t.tn = s.tn)
    (h3 : t.tu = s.tu) : t.Inv ↔ s.Inv := by
  simp only [State.Inv, State.ErrLegal, State.ErrMeansSticky, State.OutPadded,
    State.TimeFlagsAgree, he, hs, hl, ho, h1, h2, h3]

theorem run_zero (s : State) : Host.Core.run Sys2Proof.core 0 s = .next s := rfl

theorem run_succ {s t : State} (h : step s = .next t) (k : Nat) :
    Host.Core.run Sys2Proof.core (k + 1) s = Host.Core.run Sys2Proof.core k t := by
  have hc : Sys2Proof.core.step s = .next t := h
  simp only [Host.Core.run, hc]

end Sys2Proof.Machine
end

