-- ==== Sys2Proof/Tests/Slice0.lean ====
section
/-! SUPPORT. Tests of the model. The expected words and results are those of spec/95_test_vectors.md
(their numbers A1.. G15, P1.. stand in the docstrings) and of 30_encoding.md R58; and for every
statement of Certificates/Slice0/Obligations.lean that has hypotheses, a witness that meets them. -/

open Sys2Proof Sys2Proof.Machine Sys2Proof.Claims

namespace Sys2Proof.Tests

/-! ### Helpers -/

/-- The value whose canonical string has the hex digits of `x`. -/
def val (x : Nat) : Value := Vector.ofFn fun i => BitVec.ofNat 8 (x >>> (8 * (15 - i.val)))

/-- The ASCII bytes of a string. -/
def ascii (x : String) : List Byte := x.toList.map fun c => BitVec.ofNat 8 c.toNat

/-- The reset state with one value register set. -/
def withV (n : VReg) (x : Nat) (s : State := State.reset) : State := { s with v := s.v.set n (val x) }

/-- The reset state with one scalar register set. -/
def withR (n : RReg) (x : Scalar) (s : State := State.reset) : State := { s with r := s.r.set n x }

/-- The reset state with an input. -/
def withIn (bs : List Byte) (s : State := State.reset) : State :=
  { s with ibuf := Vector.ofFn fun i => bs.getD i.val 0#8, ilen := BitVec.ofNat 7 bs.length }

/-- The reset state with one host access presented. -/
def presents (we : Bool) (a : BitVec 9) (w : Word := 0#32) (size : BitVec 2 := 2#2) : State :=
  { State.reset with pending := [.access ⟨we, a, size, w⟩] }

/-- The next state, if the outcome is one. -/
def nextOf : Result → Option State
  | .next t => some t
  | .fault _ => none
  | .refused _ => none

/-- A field of the state after a command. -/
def after {α : Type} (i : Instr) (s : State) (f : State → α) : Option α := (nextOf (exec i s)).map f

/-- The text in `OBUF`, with its length, and whether the rest is zero. -/
def output (t : State) : List Byte × Bool :=
  (t.obuf.toList.take t.olen.toNat, (t.obuf.toList.drop t.olen.toNat).all (· == 0#8))

/-- The values of the vectors: A1's, the version 4 one, its foreign form, and A1's packed form. -/
abbrev uA : Nat := 0x6b075b82ec4411e580dc00155d0abc54
abbrev uB : Nat := 0x00112233445566778899aabbccddeeff
abbrev uF : Nat := 0x825b076b44ece51180dc00155d0abc54

/-! ### WellFormed: an ill-formed term for each check -/

theorem test_wf_unassigned_opcode :
    (⟨0x15#8, 0, 0, 0, 0, 0, 0⟩ : Fields).check = some .unassignedOpcode ∧
    (⟨0x00#8, 0, 0, 0, 0, 0, 0⟩ : Fields).check = some .unassignedOpcode := by decide

theorem test_wf_reserved_bit :
    (⟨0x10#8, 0, 0, 0, 0, 0, 1⟩ : Fields).check = some .reservedBitSet := by decide

theorem test_wf_unused_d : (⟨0x71#8, 1, 0, 0, 0, 0, 0⟩ : Fields).check = some .unusedD := by decide

theorem test_wf_unused_s : (⟨0x60#8, 0, 1, 0, 0, 0, 0⟩ : Fields).check = some .unusedS := by decide

theorem test_wf_unused_t : (⟨0x40#8, 0, 0, 1, 0, 0, 0⟩ : Fields).check = some .unusedT := by decide

theorem test_wf_unused_imm : (⟨0x60#8, 0, 0, 0, 1, 0, 0⟩ : Fields).check = some .unusedImm := by
  decide

theorem test_wf_unused_m : (⟨0x32#8, 2, 1, 0, 0, 1, 0⟩ : Fields).check = some .unusedM := by decide

theorem test_wf_mintraw_version : (Pseudo.mintraw 0 0 2#4).wf = false := by decide

/-! ### Decoding: a written-out word of every command (R58 and 95_test_vectors.md) -/

/-- A1, A15-A18. -/
theorem test_decode_codec :
    decode 0x00000010#32 = .legal (.parse 0) ∧ decode 0x00000011#32 = .legal (.fmt 0) ∧
    decode 0x00001011#32 = .legal (.fmt 2) ∧ decode 0x00000012#32 = .legal (.hex 0) ∧
    decode 0x00002813#32 = .legal (.urn 5) ∧ decode 0x00000014#32 = .legal (.raw 0) := by
  decide

/-- B1, B4, B5, B9, B12, B15, B17, P3. -/
theorem test_decode_bit_fields :
    decode 0x00080120#32 = .legal (.setver 1 0 4) ∧ decode 0x00120120#32 = .legal (.setver 1 0 9) ∧
    decode 0x00000121#32 = .legal (.setvar 1 0) ∧ decode 0x00100122#32 = .legal (.stamp 1 0 8) ∧
    decode 0x000A0022#32 = .legal (.stamp 0 0 5) ∧ decode 0x00000223#32 = .legal (.getver 2 0) ∧
    decode 0x00001224#32 = .legal (.getvar 2 2) := by decide

/-- C1, C2, C5, C7, P6. -/
theorem test_decode_packers :
    decode 0x00000A30#32 = .legal (.packv1 2 1 0 false) ∧
    decode 0x00200A30#32 = .legal (.packv1 2 1 0 true) ∧
    decode 0x00004B31#32 = .legal (.packv6 3 1 1 false) ∧
    decode 0x0001AD32#32 = .legal (.packv7 5 5 6) := by decide

/-- D1, D11, D12, P4. -/
theorem test_decode_accessors :
    decode 0x00002F40#32 = .legal (.gettime 7 5) ∧ decode 0x00000241#32 = .legal (.getnode 2 0) ∧
    decode 0x00000042#32 = .legal (.nodehex 0) := by decide

/-- E1, E2, E5, E8. -/
theorem test_decode_byte_order :
    decode 0x00000150#32 = .legal (.tofor 1 0) ∧ decode 0x00000A51#32 = .legal (.fromfor 2 1) ∧
    decode 0x00000452#32 = .legal (.forin 4) ∧ decode 0x00000353#32 = .legal (.order 3 0) := by
  decide

/-- F1-F4, F8, G1, G2. -/
theorem test_decode_nil_validate_housekeeping :
    decode 0x00000760#32 = .legal (.nil 7) ∧ decode 0x00003861#32 = .legal (.isnil 0 7) ∧
    decode 0x00000162#32 = .legal (.isnilin 1) ∧ decode 0x00000263#32 = .legal (.valid 2) ∧
    decode 0x00004364#32 = .legal (.cmp 3 0 1) ∧ decode 0x00000170#32 = .legal (.movv 1 0) ∧
    decode 0x00000071#32 = .legal .clrerr := by decide

/-- G3-G8. -/
theorem test_decode_illegal :
    decode 0x00000000#32 = .illegal .unassignedOpcode ∧ decode 0x00000171#32 = .illegal .unusedD ∧
    decode 0x00400010#32 = .illegal .reservedBitSet ∧
    decode 0x00000815#32 = .illegal .unassignedOpcode ∧
    decode 0x00200A32#32 = .illegal .unusedM ∧ decode 0x00020060#32 = .illegal .unusedImm := by
  decide

/-- R58: "`op | d << 8 | s << 11 | t << 14 | imm << 17 | m << 21`", with the texts. -/
theorem test_encode_and_text :
    encode (.packv1 2 1 0 true) = 0x00200A30#32 ∧
    (Instr.packv1 2 1 0 true).text = "PACKV1 V2, V1, R0, m" ∧
    encode (.stamp 3 3 2#4) = 0x00041B22#32 ∧ (Instr.stamp 3 3 2#4).text = "STAMP V3, V3, #2" := by
  decide

theorem test_decode_table_word :
    decodeTableWord 32 0x00004364 = some (.cmp 3 0 1) ∧ decodeTableWord 32 0x00000171 = none := by
  decide

/-! ### Codec -/

/-- A3: the URN prefix is stripped. -/
theorem test_parse_urn :
    after (.parse 0) (withIn (ascii "urn:uuid:6b075b82-ec44-11e5-80dc-00155d0abc54"))
      (fun t => (t.v[0], t.err)) = some (val uA, .noError) := by decide

/-- A9: an upper-case prefix is not stripped; its `D` is a 33rd digit. -/
theorem test_parse_upper_case_urn_fails :
    after (.parse 0) (withIn (ascii "URN:UUID:6b075b82-ec44-11e5-80dc-00155d0abc54"))
      (fun t => (t.v[0], statusWord t)) = some (nilValue, 0x12#32) := by decide

/-- A8: sixteen bytes are taken raw, though they are hex digits. -/
theorem test_normalise_raw :
    (withIn (ascii "0123456789abcdef")).input = some (val 0x30313233343536373839616263646566) := by
  decide

/-- A5, A11, A13: braces are dropped; 30 digits and 65 bytes fail. -/
theorem test_normalise_lengths :
    (withIn (0x7b#8 :: ascii "6B075b82-ec44-11e5-80dc-00155d0abc54" ++ [0x7d#8])).input = some (val uA) ∧
    (withIn (ascii "6b075b82-ec44-11e5-80dc-00155d0abc")).input = none ∧
    ({ withIn (ascii "6b075b82-ec44-11e5-80dc-00155d0abc54") with ilen := 65#7 }).input = none := by
  decide

/-- A15, with its words at 0x140, 0x160 and 0x164. -/
theorem test_fmt :
    after (.fmt 0) (withV 0 uA) (fun t => (output t, t.olen, readWindow t 0x140#9,
      readWindow t 0x160#9, readWindow t 0x164#9)) =
    some ((ascii "6b075b82-ec44-11e5-80dc-00155d0abc54", true), 36#7, 0x37306236#32, 0x34356362#32,
      0x00000000#32) := by decide

/-- A16. -/
theorem test_hex :
    after (.hex 0) (withV 0 uA) output = some (ascii "6b075b82ec4411e580dc00155d0abc54", true) := by
  decide

/-- A17. -/
theorem test_urn :
    after (.urn 0) (withV 0 uA) output =
      some (ascii "urn:uuid:6b075b82-ec44-11e5-80dc-00155d0abc54", true) := by decide

/-- A19: the old output's tail is cleared. -/
theorem test_raw_clears_tail :
    after (.raw 0) { withV 0 uB with obuf := Vector.replicate 64 0x75#8, olen := 45#7 } output =
      some ((val uB).toList, true) := by decide

/-! ### Bit fields -/

/-- B1, and B2: SETVER accepts 2. -/
theorem test_setver :
    after (.setver 1 0 4) (withV 0 uA) (·.v[1]) = some (val 0x6b075b82ec4441e580dc00155d0abc54) ∧
    after (.setver 1 0 2) (withV 0 uA) (·.v[1]) = some (val 0x6b075b82ec4421e580dc00155d0abc54) := by
  decide

/-- B3, B4: versions 0 and 9 are refused with UNSUPPORTED_VERSION, nothing written. -/
theorem test_setver_range : ∀ imm ∈ [0#4, 9#4, 15#4],
    after (.setver 1 0 imm) (withV 0 uA) (fun t => (t.v[1], statusWord t)) =
      some (nilValue, 0x22#32) := by decide

/-- B6. -/
theorem test_setvar : ∀ p ∈ [(0x00, 0x80), (0xFF, 0xBF), (0x7F, 0xBF), (0xC5, 0x85)],
    after (.setvar 1 0) (withV 0 (p.1 <<< 56)) (·.v[1]) = some (val (p.2 <<< 56)) := by
  decide

/-- B11, B12: source and destination the same register. -/
theorem test_stamp :
    after (.stamp 0 0 3) (withV 0 (2 ^ 128 - 1)) (·.v[0]) =
      some (val 0xffffffffffff3fffbfffffffffffffff) ∧
    after (.stamp 0 0 5) State.reset (·.v[0]) = some (val 0x00000000000050008000000000000000) := by
  decide

/-- B7, B13: STAMP refuses 2 where SETVER does not, and 0 and 9. -/
theorem test_stamp_range : ∀ imm ∈ [0#4, 2#4, 9#4],
    after (.stamp 1 0 imm) (withV 0 uA) (fun t => (t.v[1], statusWord t)) =
      some (nilValue, 0x22#32) := by decide

/-- B15, B16. -/
theorem test_getver :
    after (.getver 2 0) (withV 0 uA) (·.r[2]) = some 1#64 ∧
    after (.getver 0 0) (withV 0 0xffffffffffffffffc000000000000000) (·.r[0]) = some 15#64 := by
  decide

/-- B17: both sides of every threshold. -/
theorem test_getvar : ∀ p ∈ [(0x00, 0), (0x7F, 0), (0x80, 1), (0xBF, 1), (0xC0, 2), (0xDF, 2),
      (0xE0, 3), (0xFF, 3)],
    after (.getvar 0 0) (withV 0 (p.1 <<< 56)) (·.r[0]) = some (BitVec.ofNat 64 p.2) := by
  decide

/-! ### Packers -/

/-- C2: the multicast bit. -/
theorem test_packv1_multicast :
    after (.packv1 2 1 0 true) (withR 0 0x0033CE7257861B82#64 (withV 1 0xa1b2c4d5e6f70819))
      (·.v[2]) = some (val 0x6b075b82ec4401e5a1b2c5d5e6f70819) := by decide

/-- C4, C9: the sum wraps, and a destination equal to the source reads it first. -/
theorem test_packv1_wraps :
    after (.packv1 1 1 0 false) (withR 0 0xFFFFFFFFFFFFFFFF#64 (withV 1 0x80dc00155d0abc54))
      (·.v[1]) = some (val 0x13813fff1dd201b280dc00155d0abc54) := by decide

/-- C5. -/
theorem test_packv6 :
    after (.packv6 3 1 0 false) (withR 0 0x0033CE7257861B82#64 (withV 1 0x80dc00155d0abc54))
      (·.v[3]) = some (val 0x01e5ec446b075b8280dc00155d0abc54) := by decide

/-- C7, C8: bytes 6..15 are kept, the time is taken modulo 2^48. -/
theorem test_packv7 :
    after (.packv7 5 5 6) (withR 6 1458221430224#64 (withV 5 0x0123456789abcdef0123)) (·.v[5]) =
      some (val 0x015384c535d00123456789abcdef0123) ∧
    after (.packv7 5 5 6) (withR 6 0x1000000000005#64) (·.v[5]) =
      some (val 0x00000000000500000000000000000000) := by decide

/-! ### Accessors -/

/-- D1-D3, D5, D6: the values and STATUS. -/
theorem test_gettime_ticks : ∀ p ∈ [(uA, 0x0033CE7257861B82#64, 0x100#32),
      (0x01e5ec446b076b8280dc00155d0abc54, 0x0033CE725785CB82#64, 0x100#32),
      (0x00000000000010008000000000000000, 0xFE4DE22DEC7EC000#64, 0x300#32),
      (0xffffffffffff1fffbfffffffffffffff, 0x0E4DE22DEC7EBFFF#64, 0x100#32),
      (0xffffffffffff6fffbfffffffffffffff, 0xFE4DE22DEC7DCFFF#64, 0x100#32)],
    after (.gettime 1 0) (withV 0 p.1) (fun t => (t.r[1], statusWord t)) = some (p.2.1, p.2.2) := by
  decide

/-- D7, D8: milliseconds, and no timestamp, which clears the flags. -/
theorem test_gettime_millis_and_absent :
    after (.gettime 1 0) (withV 0 0xffffffffffff7fffbfffffffffffffff)
      (fun t => (t.r[1], statusWord t)) = some (0x0000FFFFFFFFFFFF#64, 0x500#32) ∧
    after (.gettime 1 0) { withV 0 0x00112233445546778899aabbccddeeff with
        tv := true, tn := true, tu := true } (fun t => (t.r[1], statusWord t)) =
      some (0#64, 0x000#32) := by decide

/-- D11, D13, D14. -/
theorem test_getnode : ∀ p ∈ [(uA, 0x0000155D0ABC54#64, true),
      (0x6b075b82ec4411e58000000000000000, 0#64, true),
      (0x015384c535d07123856789abcdef0123, 0#64, false)],
    after (.getnode 2 0) (withV 0 p.1) (fun t => (t.r[2], t.nv)) = some (p.2.1, p.2.2) := by
  decide

/-- D12, D14. -/
theorem test_nodehex :
    after (.nodehex 0) (withV 0 uA) (fun t => (output t, t.nv)) =
      some ((ascii "00155d0abc54", true), true) ∧
    after (.nodehex 0) { withV 0 0x015384c535d07123856789abcdef0123 with obuf := Vector.replicate 64 0x75#8, olen := 45#7, nv := true }
      (fun t => (output t, t.nv)) = some (([], true), false) := by decide

/-! ### Byte order -/

/-- E1, E3. -/
theorem test_tofor :
    after (.tofor 1 0) (withV 0 uA) (·.v[1]) = some (val uF) ∧
    after (.tofor 0 0) (withV 0 uB) (·.v[0]) = some (val 0x33221100554477668899aabbccddeeff) := by
  decide

/-- E2. -/
theorem test_fromfor : after (.fromfor 2 1) (withV 1 uF) (·.v[2]) = some (val uA) := by
  decide

/-- E5 (the source's example S1), E7. -/
theorem test_forin :
    after (.forin 4) (withIn (ascii "825B076B-44EC-E511-80DC-00155D0ABC54")) (·.v[4]) =
      some (val uA) ∧
    after (.forin 4) (withIn (val 0x825b076b44ece51180dc00155d0abc54).toList) (·.v[4]) =
      some (val uA) := by decide

/-- E6. -/
theorem test_forin_fails :
    after (.forin 4) (withIn (ascii "825B076B-44EC-E511-80DC-00155D0ABC"))
      (fun t => (t.v[4], statusWord t)) = some (nilValue, 0x52#32) := by decide

/-- E8: twice is not the identity. -/
theorem test_order :
    after (.order 3 0) (withV 0 uB) (·.v[3]) = some (val 0x66774455001122338899aabbccddeeff) ∧
    after (.order 3 3) (withV 3 0x66774455001122338899aabbccddeeff) (·.v[3]) =
      some (val 0x22330011667744558899aabbccddeeff) := by decide

/-! ### Nil, validate, compare, housekeeping -/

/-- F1. -/
theorem test_nil : after (.nil 7) (withV 7 uA) (·.v[7]) = some (val 0) := by decide

/-- F2 and the source's S4. -/
theorem test_isnil :
    after (.isnil 0 7) State.reset (·.r[0]) = some 1#64 ∧
    after (.isnil 0 7) (withV 7 1) (·.r[0]) = some 0#64 := by decide

/-- F3. -/
theorem test_isnilin :
    after (.isnilin 1) (withIn (ascii "00000000000000000000000000000000")) (·.r[1]) = some 1#64 ∧
    after (.isnilin 1) (withR 1 5#64 (withIn (ascii "nil"))) (fun t => (t.r[1], t.err)) =
      some (0#64, .noError) := by decide

/-- F4, F7. -/
theorem test_valid :
    after (.valid 2) (withR 2 5#64 (withIn (ascii "6b075b82-ec44-11e5-80dc-00155d0abc5g")))
      (fun t => (t.r[2], t.err)) = some (0#64, .noError) ∧
    after (.valid 2) (withIn (ascii "6b075b82-ec44-11e5-80dc-00155d0abc54x")) (·.r[2]) =
      some 1#64 := by decide

/-- F9, F10. -/
theorem test_cmp :
    after (.cmp 3 0 1) (withV 1 uF (withV 0 uA)) (·.r[3]) = some 0#64 ∧
    after (.cmp 3 0 0) (withV 0 uA) (·.r[3]) = some 1#64 := by decide

/-- G1. -/
theorem test_movv :
    after (.movv 1 0) (withV 0 uA) (fun t => (t.v[0], t.v[1])) = some (val uA, val uA) := by
  decide

/-- G2; the flags stay. -/
theorem test_clrerr :
    after .clrerr { State.reset with sticky := true, err := .invalidLength, nv := true } statusWord =
      some 0x800#32 := by decide

/-! ### The host port, steps and reset -/

/-- G9, G10, G11. -/
theorem test_read_window :
    readWindow (withV 0 uA) 0x080#9 = 0x825b076b#32 ∧
    readWindow (withV 0 uA) 0x08C#9 = 0x54bc0a5d#32 ∧
    readWindow (withR 1 0x0033CE7257861B82#64) 0x048#9 = 0x57861b82#32 ∧
    readWindow (withR 1 0x0033CE7257861B82#64) 0x04C#9 = 0x0033ce72#32 ∧
    readWindow State.reset 0x010#9 = 0x55434201#32 := by decide

/-- P4's start state: the words of `V5` and `R6`. -/
theorem test_write_window :
    (writeWindow (writeWindow (writeWindow State.reset 0x0D4#9 0x23010000#32) 0x0D8#9 0xab896745#32)
      0x0DC#9 0x2301efcd#32).v[5] = val 0x0123456789abcdef0123 ∧
    (writeWindow (writeWindow State.reset 0x070#9 0x84c535d0#32) 0x074#9 0x00000153#32).r[6] =
      1458221430224#64 := by decide

/-- G14. -/
theorem test_ilen_is_seven_bits :
    readWindow (writeWindow State.reset 0x008#9 0xFFFFFFFF#32) 0x008#9 = 0x0000007F#32 := by
  decide

/-- G12: a 16-bit read of 0x004 and a 32-bit read of 0x006 are bus errors and change no state. -/
theorem test_bus_error :
    nextOf (step (presents false 0x004#9 0#32 1#2)) =
      some { State.reset with replies := [.busError] } ∧
    nextOf (step (presents false 0x006#9)) = some { State.reset with replies := [.busError] } := by
  decide

/-- G13. -/
theorem test_reserved_offset :
    nextOf (step (presents false 0x020#9)) =
      some { State.reset with replies := [.data 0#32] } ∧
    nextOf (step (presents true 0x020#9 0xFFFFFFFF#32)) =
      some { State.reset with replies := [.written] } := by decide

/-- G3: the write of an illegal word, then the step that completes it. -/
theorem test_illegal_command :
    ((nextOf (step (presents true 0x000#9 0x00000000#32))).bind fun t => nextOf (step t)).map
      statusWord = some 0x62#32 := by decide

/-- The very next step after `withFetchWord` runs the word. -/
theorem test_withFetchWord :
    (nextOf (step (State.reset.withFetchWord 32 0x000A0022))).map (·.v[0]) =
      some (val 0x00000000000050008000000000000000) := by decide

/-- G15: reset with a command in flight. -/
theorem test_reset :
    nextOf (step { withV 0 uA with inflight := some 0x00000011#32, pending := [.reset none] }) =
      some State.reset := by decide

/-! ### Witnesses: for each statement with hypotheses, states and operands that meet them

The free choice `Config.statusReadSeesBusy` has no value in Lean, so no statement assumes one. -/

/-- LegalWordsHaveOneEncoding, and the illegal side of LegalExactlyWhenARowSelects. -/
theorem test_witness_legal_and_illegal_words :
    decode 0x00200A30#32 = .legal (.packv1 2 1 0 true) ∧ (¬ ∃ i, decode 0x00200A32#32 = .legal i) := by
  constructor
  · decide
  · rintro ⟨i, h⟩
    rw [show decode 0x00200A32#32 = .illegal .unusedM by decide] at h
    cases h

/-- No reset and no `STATUS` read stands next when nothing does. -/
theorem test_nothing_next (s : State) (h : s.pending = []) : ¬ ResetNext s ∧ ¬ StatusReadNext s := by
  constructor
  · rintro ⟨a, rest, h'⟩
    simp [h] at h'
  · rintro ⟨a, h', -⟩
    simp [h] at h'

/-- StepRunsTheInflightCommand, both clauses, and ErrIsWrittenAtEveryCompletion, its second. -/
theorem test_witness_step_runs : ∃ s1 s2 : State,
    s1.inflight = some 0x00000760#32 ∧ ¬ ResetNext s1 ∧ ¬ StatusReadNext s1 ∧
    decode 0x00000760#32 = .legal (.nil 7) ∧ (∃ t, step s1 = .next t) ∧
    s2.inflight = some 0x00000171#32 ∧ ¬ ResetNext s2 ∧ ¬ StatusReadNext s2 ∧
    decode 0x00000171#32 = .illegal .unusedD ∧ (∃ t, step s2 = .next t) := by
  refine ⟨State.reset.withFetchWord 32 0x760, State.reset.withFetchWord 32 0x171, by decide, ?_, ?_,
    by decide, ⟨_, rfl⟩, by decide, ?_, ?_, by decide, ⟨_, rfl⟩⟩ <;>
  first
    | exact (test_nothing_next _ rfl).1
    | exact (test_nothing_next _ rfl).2

/-- CmdWriteIssuesTheCommand, and BlockAtRestChangesNothing. -/
theorem test_witness_cmd_write :
    (presents true 0x000#9 0x760#32).inflight = none ∧
    (presents true 0x000#9 0x760#32).pending = [.access ⟨true, 0x000#9, 2#2, 0x760#32⟩] ∧
    State.reset.inflight = none ∧ State.reset.pending = [] := by decide

/-- InterlockHoldsEveryAccessButStatusReads, both clauses: a `CMD` write waits, a `STATUS` read
is next. -/
theorem test_witness_interlock : ∃ s1 s2 : State,
    s1.inflight = some 0x760#32 ∧ s1.pending = [.access ⟨true, 0x000#9, 2#2, 0#32⟩] ∧
    ¬ StatusReadNext s1 ∧ (∃ t, step s1 = .next t) ∧
    s2.inflight = some 0x760#32 ∧ s2.pending = [.access ⟨false, 0x004#9, 2#2, 0#32⟩] ∧
    StatusReadNext s2 := by
  refine ⟨{ presents true 0x000#9 with inflight := some 0x760#32 },
    { presents false 0x004#9 with inflight := some 0x760#32 }, rfl, rfl, ?_, ⟨_, rfl⟩, rfl, rfl,
    ⟨_, rfl, rfl, rfl, rfl⟩⟩
  rintro ⟨a, h, hwe, -⟩
  cases h
  cases hwe

/-- IllegalAccessIsABusError: a wrong size, and a wrong alignment, at rest and not. -/
theorem test_witness_bus_error : ∃ s1 s2 : State,
    s1.pending = [.access ⟨false, 0x004#9, 1#2, 0#32⟩] ∧ (1#2 : BitVec 2) ≠ 2#2 ∧
    s1.inflight = none ∧ s2.pending = [.access ⟨true, 0x006#9, 2#2, 0#32⟩] ∧
    (0x006#9).toNat % 4 ≠ 0 ∧ s2.inflight = some 0x760#32 :=
  ⟨presents false 0x004#9 0#32 1#2, { presents true 0x006#9 with inflight := some 0x760#32 },
    rfl, by decide, rfl, rfl, by decide, rfl⟩

/-- The offsets at the ends of every clause of HostReadsFollowTheRegisterMap and
HostWritesFollowTheRegisterMap. -/
def boundaryOffsets : List (BitVec 9) :=
  [0x000#9, 0x004#9, 0x008#9, 0x00C#9, 0x010#9, 0x014#9, 0x03C#9, 0x040#9, 0x044#9, 0x078#9,
    0x07C#9, 0x080#9, 0x08C#9, 0x0F0#9, 0x0FC#9] ++
  [0x100#9, 0x13C#9, 0x140#9, 0x17C#9, 0x180#9, 0x1FC#9]

/-- HostReadsFollowTheRegisterMap, HostWritesFollowTheRegisterMap, ReservedOffsetsAndBitsReadZero:
a read and a write at every end of every clause. -/
theorem test_witness_host_accesses : ∀ a ∈ boundaryOffsets, ∀ we : Bool,
    (presents we a).inflight = none ∧ (presents we a).pending = [.access ⟨we, a, 2#2, 0#32⟩] ∧
    a.toNat % 4 = 0 ∧ (nextOf (step (presents we a))).isSome := by decide

/-- Which clause each of those offsets falls under: one, and no other. -/
theorem test_boundary_offsets_regions : boundaryOffsets.map regionOf =
    [.cmd, .status, .ilen, .olen, .id, .reserved, .reserved, .scalarWord 0 false, .scalarWord 0 true,
      .scalarWord 7 false, .scalarWord 7 true, .valueWord 0 0, .valueWord 0 3, .valueWord 7 0,
      .valueWord 7 3, .ibufWord 0, .ibufWord 15, .obufWord 0, .obufWord 15, .reserved, .reserved] := by
  decide

/-- WriteThenRead, each clause at its ends; RegisterWritesAreIdempotent. -/
theorem test_witness_write_then_read :
    (0x008#9).toNat % 4 = 0 ∧ (0x008#9).toNat = 0x008 ∧ (0x040#9).toNat % 4 = 0 ∧
    0x040 ≤ (0x040#9).toNat ∧ (0x040#9).toNat < 0x140 ∧ (0x13C#9).toNat % 4 = 0 ∧
    0x040 ≤ (0x13C#9).toNat ∧ (0x13C#9).toNat < 0x140 ∧ (0x040#9).toNat ≠ 0x000 ∧
    0x040#9 ≠ 0x044#9 := by decide

/-- PlatformWindow: an address outside the window, whatever `UCB_BASE` is. -/
theorem test_witness_platform_window : ∃ a, a < Config.ucbBase ∨ Config.ucbBase + 0x200 ≤ a :=
  ⟨Config.ucbBase + 0x200, .inr (Nat.le_refl _)⟩

/-- ResetFromAnyState, and the reset clauses of the error statements. -/
theorem test_witness_reset : ∃ s : State, s.pending = [.reset none] ∧ s.inflight = some 0x11#32 ∧
    ResetNext s :=
  ⟨{ State.reset with inflight := some 0x11#32, pending := [.reset none] }, rfl, rfl, none, [], rfl⟩

/-- EveryCommandCompletes: a command is in flight; StepwiseRunEqualsAtomicRun: a run with a command
and no `STATUS` read. -/
theorem test_witness_runs : ∃ s1 s2 : State, s1.inflight.isSome = true ∧ s2.inflight = none ∧
    s2.pending.length = 2 ∧ (∀ x ∈ s2.pending, x.seesNoBusy = true) ∧
    ((nextOf (atomicRun 2 s2)).map (·.replies)) = some [.written, .data 0x00500000#32] :=
  ⟨State.reset.withFetchWord 32 0x760,
    { State.reset with
      pending := [.access ⟨true, 0x000#9, 2#2, 0x000A0022#32⟩,
        .access ⟨false, 0x084#9, 2#2, 0#32⟩] }, by decide, by decide, by decide, by decide, by decide⟩

/-- EveryStepKeepsTheInvariant: a state with an output, time flags and an error, and its step. -/
theorem test_witness_invariant : ∃ s t : State, s.Inv ∧ step s = .next t ∧ s.olen = 12#7 ∧
    s.tv = true ∧ s.err = .invalidLength :=
  ⟨{ State.reset with
      olen := 12#7, obuf := paddedBuffer (ascii "00155d0abc54"), tv := true, tn := true,
      err := .invalidLength, sticky := true, inflight := some 0x12#32 }, _, by decide, rfl, rfl, rfl,
    rfl⟩

/-- AnErrorChangesNothingElse: a word of each error. -/
theorem test_witness_errors :
    errorOf 0#32 State.reset = .illegalCommand ∧ errorOf 0x10#32 State.reset = .invalidLength ∧
    errorOf 0x52#32 State.reset = .invalidForeignFormat ∧
    errorOf 0x00120120#32 State.reset = .unsupportedVersion ∧
    errorOf 0x00040122#32 State.reset = .unsupportedVersion := by decide

/-- StickySetByErrorsClearedByClrerrOrReset: each clause. -/
theorem test_witness_sticky : ∃ s1 t1 s2 t2 s3 t3 : State,
    completeCommand 0#32 s1 = .next t1 ∧ t1.err ≠ .noError ∧
    step s2 = .next t2 ∧ s2.sticky = true ∧ t2.sticky = false ∧
    exec (.movv 1 0) s3 = .next t3 ∧ t3.err = .noError :=
  ⟨State.reset, _, { State.reset with sticky := true, inflight := some 0x71#32 }, _, State.reset, _,
    rfl, by decide, rfl, rfl, rfl, rfl, rfl⟩

/-- ErrIsWrittenAtEveryCompletion and FlagsAreWrittenByTheirCommandsOnly: a step at rest. -/
theorem test_witness_step_at_rest : ∃ s t : State, s.inflight = none ∧ ¬ ResetNext s ∧
    step s = .next t ∧ s.nv = true :=
  ⟨{ State.reset with nv := true }, _, rfl, (test_nothing_next _ rfl).1, rfl, rfl⟩

/-- FlagsAreWrittenByTheirCommandsOnly, CommandsNeverWriteTheInput,
CommandsWriteOnlyTheirDestination and RegisterFrame: commands that complete, and what each of them
may not write. -/
theorem test_witness_frames : ∃ t1 t2 t3 : State,
    exec (.getnode 2 0) (withV 0 uA) = .next t1 ∧ exec (.gettime 2 0) (withV 0 uA) = .next t2 ∧
    completeCommand 0x760#32 State.reset = .next t3 ∧
    mayWrite (.getnode 2 0) (regionOf 0x040#9) = false ∧
    mayWrite (.getnode 2 0) (.valueWord 2 0) = false ∧
    mayWrite (.getnode 2 0) (.scalarWord 1 true) = false ∧ mayWrite (.getnode 2 0) .olen = false ∧
    (∀ d src, Instr.getnode 2 0 ≠ .gettime d src) ∧ (∀ src, Instr.gettime 2 0 ≠ .nodehex src) := by
  refine ⟨_, _, _, rfl, rfl, rfl, by decide, by decide, by decide, by decide, ?_, ?_⟩ <;> simp

/-- NormaliseFollowsItsSteps: too long, raw, 32 digits after the prefix, and another count. -/
theorem test_witness_normalise : ∃ body h : List Byte,
    64 < (65#7).toNat ∧ (16#7).toNat = 16 ∧ (45#7).toNat ≤ 64 ∧ (45#7).toNat ≠ 16 ∧
    body = ascii "6b075b82-ec44-11e5-80dc-00155d0abc54" ∧
    h = body.filter isHexDigit ∧ h.length = 32 ∧ (ascii "nil").length ≠ 32 ∧ (3#7).toNat ≠ 16 :=
  ⟨_, _, by decide, by decide, by decide, by decide, rfl, rfl, by decide, by decide, by decide⟩

/-- ParseImportsTheInput, ForinImportsForeignOrder and IsnilinAndValidNeverRaise: an input that
normalises to a value, to the nil value, and one that does not. -/
theorem test_witness_input :
    normalise (withIn (ascii "6b075b82ec4411e580dc00155d0abc54")).ibuf 32#7 = some (val uA) ∧
    normalise State.reset.ibuf 16#7 = some nilValue ∧ normalise State.reset.ibuf 0#7 = none ∧
    (val uA)[0] ≠ 0#8 := by decide

/-- OutputParsesBackToTheValue. -/
theorem test_witness_output : Instr.urn 3 ∈ [Instr.fmt 3, .hex 3, .urn 3, .raw 3] := by decide

/-- SetverWritesTheVersionNibble, StampWritesVersionAndVariant, StampedValuesReadBack: a version of
each clause, at its ends. -/
theorem test_witness_versions :
    (∀ n ∈ [1#4, 8#4], 1 ≤ n.toNat ∧ n.toNat ≤ 8 ∧ n.toNat ∈ [1, 3, 4, 5, 6, 7, 8]) ∧
    (0#4).toNat = 0 ∧ (2#4).toNat = 2 ∧ 9 ≤ (9#4).toNat ∧ 9 ≤ (15#4).toNat := by decide

/-- GetvarClassifiesByteEight: both ends of every clause. -/
theorem test_witness_variants :
    (∀ n ∈ [0x00, 0x7F], (withV 0 (n <<< 56)).v[0][8].toNat < 0x80) ∧
    (∀ n ∈ [0x80, 0xBF], 0x80 ≤ (withV 0 (n <<< 56)).v[0][8].toNat ∧
      (withV 0 (n <<< 56)).v[0][8].toNat < 0xC0) ∧
    (∀ n ∈ [0xC0, 0xDF], 0xC0 ≤ (withV 0 (n <<< 56)).v[0][8].toNat ∧
      (withV 0 (n <<< 56)).v[0][8].toNat < 0xE0) ∧
    (∀ n ∈ [0xE0, 0xFF], 0xE0 ≤ (withV 0 (n <<< 56)).v[0][8].toNat) := by decide

/-- GettimeExtractsTheTime, GetnodeExtractsTheNode, NodehexWritesTheNode: a value of each version
clause, the time below and at the epoch. -/
theorem test_witness_time : ∃ u1 u6 u7 u4 : Value,
    u1[6].toNat / 16 = 1 ∧
    sumBe [u1[6] &&& 0x0F#8, u1[7], u1[4], u1[5], u1[0], u1[1], u1[2], u1[3]] < epoch ∧
    u6[6].toNat / 16 = 6 ∧
    epoch ≤ sumBe [u6[0], u6[1], u6[2], u6[3], u6[4], u6[5], u6[6] &&& 0x0F#8, u6[7]] ∧
    u7[6].toNat / 16 = 7 ∧ u4[6].toNat / 16 ∉ [1, 6, 7] :=
  ⟨val 0x00000000000010008000000000000000, val 0x01e5ec446b076b8280dc00155d0abc54,
    val 0xffffffffffff7fffbfffffffffffffff, val 0x00112233445546778899aabbccddeeff,
    by decide, by decide, by decide, by decide, by decide, by decide⟩

/-- ForeignOrderRoundTrip. -/
theorem test_witness_round_trip : (0 : VReg) ≠ 1 ∧ (0 : VReg) ≠ 2 := by decide

/-- IsnilAndCmpCompareBytes: a nil value and another, equal values and different ones. -/
theorem test_witness_compare :
    (∀ k : Fin 16, (withV 0 uA).v[1][k] = 0#8) ∧ (∃ k : Fin 16, (withV 0 uA).v[0][k] ≠ 0#8) ∧
    (∀ k : Fin 16, (withV 0 uA).v[1][k] = (withV 0 uA).v[2][k]) ∧
    (∃ k : Fin 16, (withV 0 uA).v[0][k] ≠ (withV 0 uA).v[1][k]) := by decide

/-- ClrerrClearsTheErrorBits: another word with CLRERR's opcode (G4). -/
theorem test_witness_clrerr :
    (0x00000171#32).extractLsb' 0 8 = 0x71#8 ∧ 0x00000171#32 ≠ 0x00000071#32 := by decide

end Sys2Proof.Tests
end

section
/-! PROOFS. How a command completes and what one step does to STICKY, ERR and the in-flight command
(10_state.md R22 to R24; 60_exceptions.md R94, R96), and the statements about them. -/

namespace Sys2Proof.Machine

open Sys2Proof.Claims

/-! ### The completion of a command -/

/-- The error of a decoded command on a state (R94): `errorOf`, for a word that is legal. -/
def instrError (i : Instr) (s : State) : ErrorCode :=
  match i with
  | .parse _ => if normalise s.ibuf s.ilen = none then .invalidLength else .noError
  | .forin _ => if normalise s.ibuf s.ilen = none then .invalidForeignFormat else .noError
  | .setver _ _ imm =>
    if imm.toNat ∈ [1, 2, 3, 4, 5, 6, 7, 8] then .noError else .unsupportedVersion
  | .stamp _ _ imm =>
    if imm.toNat ∈ [1, 3, 4, 5, 6, 7, 8] then .noError else .unsupportedVersion
  | _ => .noError

theorem errorOf_of_legal {w : Word} {i : Instr} (h : decode w = .legal i) (s : State) :
    errorOf w s = instrError i s := by
  unfold errorOf
  rw [h]
  cases i <;> rfl

theorem errorOf_of_illegal {w : Word} {why : IllFormed} (h : decode w = .illegal why) (s : State) :
    errorOf w s = .illegalCommand := by
  unfold errorOf
  rw [h]

/-- Codes 3, 4 and 7 to 15 are never raised (R94). -/
theorem errorOf_code_mem (w : Word) (s : State) :
    (errorOf w s).code.toNat ∈ [0, 1, 2, 5, 6] := by
  unfold errorOf
  split
  · decide
  · split <;> decide
  · split <;> decide
  · split <;> decide
  · split <;> decide
  · decide

/-- What the writes of every command but CLRERR leave of `s`: STICKY, the input and the host's
fields. -/
structure CommandFrame (s u : State) : Prop where
  sticky    : u.sticky = s.sticky
  ibuf      : u.ibuf = s.ibuf
  ilen      : u.ilen = s.ilen
  pending   : u.pending = s.pending
  replies   : u.replies = s.replies
  busyReads : u.busyReads = s.busyReads

section
variable (s : State)

theorem commandFrame_setV (d : VReg) (u : Value) : CommandFrame s (s.setV d u) :=
  ⟨rfl, rfl, rfl, rfl, rfl, rfl⟩

theorem commandFrame_setR (d : RReg) (x : Scalar) : CommandFrame s (s.setR d x) :=
  ⟨rfl, rfl, rfl, rfl, rfl, rfl⟩

theorem commandFrame_setOut (bs : List Byte) : CommandFrame s (s.setOut bs) :=
  ⟨rfl, rfl, rfl, rfl, rfl, rfl⟩

variable {s} {u : State}

theorem CommandFrame.setTimeFlags (h : CommandFrame s u) (f : TimeField) :
    CommandFrame s (u.setTimeFlags f) :=
  ⟨h.sticky, h.ibuf, h.ilen, h.pending, h.replies, h.busyReads⟩

theorem CommandFrame.setNodeFlag (h : CommandFrame s u) (b : Bool) :
    CommandFrame s (u.setNodeFlag b) :=
  ⟨h.sticky, h.ibuf, h.ilen, h.pending, h.replies, h.busyReads⟩

end

/-- What a command can do: raise its error, be CLRERR, or succeed with writes that keep the
frame. -/
theorem exec_cases (i : Instr) (s : State) :
    (instrError i s ≠ .noError ∧ exec i s = raise (instrError i s) s) ∨
    (i = .clrerr ∧ exec i s = succeed (s.setSticky false)) ∨
    (i ≠ .clrerr ∧ instrError i s = .noError ∧
      ∃ u, exec i s = succeed u ∧ CommandFrame s u) := by
  cases i with
  | clrerr => exact .inr (.inl ⟨rfl, rfl⟩)
  | parse d =>
    cases h : normalise s.ibuf s.ilen with
    | none => simp [instrError, exec, execParse, State.input, h]
    | some u =>
      refine .inr (.inr ⟨by simp, by simp [instrError, h], _, ?_, commandFrame_setV s d u⟩)
      simp [exec, execParse, State.input, h]
  | forin d =>
    cases h : normalise s.ibuf s.ilen with
    | none => simp [instrError, exec, execForin, State.input, h]
    | some f =>
      refine .inr (.inr ⟨by simp, by simp [instrError, h], _, ?_,
        commandFrame_setV s d (swapFields f)⟩)
      simp [exec, execForin, State.input, h]
  | setver d src imm =>
    have hv : imm.toNat ∈ [1, 2, 3, 4, 5, 6, 7, 8] ↔ ¬ (imm.toNat < 1 ∨ 8 < imm.toNat) := by
      simp only [List.mem_cons, List.not_mem_nil, or_false]
      omega
    by_cases h : imm.toNat < 1 ∨ 8 < imm.toNat
    · have he : instrError (.setver d src imm) s = .unsupportedVersion :=
        if_neg (by rwa [hv, not_not])
      exact .inl ⟨by simp [he], by rw [he]; exact if_pos h⟩
    · exact .inr (.inr ⟨by simp, if_pos (hv.2 h), _, if_neg h, commandFrame_setV ..⟩)
  | stamp d src imm =>
    by_cases h : imm.toNat ∈ [1, 3, 4, 5, 6, 7, 8]
    · exact .inr (.inr ⟨by simp, if_pos h, _, if_pos h, commandFrame_setV ..⟩)
    · have he : instrError (.stamp d src imm) s = .unsupportedVersion := if_neg h
      exact .inl ⟨by simp [he], by rw [he]; exact if_neg h⟩
  | fmt | hex | urn | raw =>
    exact .inr (.inr ⟨by simp, rfl, _, rfl, commandFrame_setOut ..⟩)
  | setvar | packv1 | packv6 | packv7 | tofor | fromfor | order | nil | movv =>
    exact .inr (.inr ⟨by simp, rfl, _, rfl, commandFrame_setV ..⟩)
  | getver | getvar | isnil | isnilin | valid | cmp =>
    exact .inr (.inr ⟨by simp, rfl, _, rfl, commandFrame_setR ..⟩)
  | gettime => exact .inr (.inr ⟨by simp, rfl, _, rfl, (commandFrame_setR ..).setTimeFlags _⟩)
  | getnode => exact .inr (.inr ⟨by simp, rfl, _, rfl, (commandFrame_setR ..).setNodeFlag _⟩)
  | nodehex => exact .inr (.inr ⟨by simp, rfl, _, rfl, (commandFrame_setOut ..).setNodeFlag _⟩)

/-- CLRERR has one command word (R93). -/
theorem decode_eq_clrerr {w : Word} (h : decode w = .legal .clrerr) : w = 0x00000071#32 := by
  have hrow : ∀ r ∈ opcodeMap, .clrerr = r.build w → r.mask = 0xFFFFFFFF#32 ∧ r.op = 0x71#32 := by
    simp [opcodeMap, codecRows, bitFieldRows, packerRows, accessorRows, byteOrderRows,
      nilValidateRows, housekeepingRows]
  obtain ⟨r, hr, hsel, hb⟩ := decode_legal h
  obtain ⟨hm, ho⟩ := hrow r hr hb
  have hw : w &&& 0xFFFFFFFF#32 = 0x71#32 := by simpa [Row.selectedBy, hm, ho] using hsel
  rwa [show (0xFFFFFFFF#32) = BitVec.allOnes 32 from rfl, BitVec.and_allOnes] at hw

/-- What a completion can do: `exec_cases` for the word's command, or ILLEGAL_COMMAND (R54). -/
theorem completeCommand_error_cases (w : Word) (s : State) :
    (errorOf w s ≠ .noError ∧ completeCommand w s = raise (errorOf w s) s) ∨
    (errorOf w s = .noError ∧ w = 0x00000071#32 ∧
      completeCommand w s = succeed (s.setSticky false)) ∨
    (errorOf w s = .noError ∧ ∃ u, completeCommand w s = succeed u ∧ CommandFrame s u) := by
  rcases completeCommand_cases w s with ⟨i, hd, hc⟩ | ⟨why, hd, hc⟩
  · rw [errorOf_of_legal hd, hc]
    rcases exec_cases i s with h | ⟨rfl, hx⟩ | ⟨-, he, hu⟩
    · exact .inl h
    · exact .inr (.inl ⟨rfl, decode_eq_clrerr hd, hx⟩)
    · exact .inr (.inr ⟨he, hu⟩)
  · rw [errorOf_of_illegal hd, hc]
    exact .inl ⟨by decide, rfl⟩

/-- A completion writes ERR with its cause's error and ends with BUSY = 0 (R23, R55). -/
theorem completeCommand_err {w : Word} {s t : State} (h : completeCommand w s = .next t) :
    t.err = errorOf w s ∧ t.inflight = none := by
  rcases completeCommand_error_cases w s with ⟨-, hc⟩ | ⟨he, -, hc⟩ | ⟨he, u, hc, -⟩ <;>
    rw [hc] at h
  · simp [(raise_next_iff s t _).1 h]
  · simp [(succeed_next_iff _ t).1 h, he]
  · simp [(succeed_next_iff u t).1 h, he]

/-- STICKY after a completion: set by an error, else left, but for CLRERR's word (R22). -/
theorem completeCommand_sticky {w : Word} {s t : State} (h : completeCommand w s = .next t) :
    (t.err ≠ .noError ∧ t.sticky = true) ∨
    (t.err = .noError ∧ (w = 0x00000071#32 ∨ t.sticky = s.sticky)) := by
  rcases completeCommand_error_cases w s with ⟨he, hc⟩ | ⟨-, hw, hc⟩ | ⟨-, u, hc, hu⟩ <;>
    rw [hc] at h
  · exact .inl (by simp [(raise_next_iff s t _).1 h, he])
  · exact .inr (by simp [(succeed_next_iff _ t).1 h, hw])
  · exact .inr (by simp [(succeed_next_iff u t).1 h, hu.sticky])

/-! ### One step -/

theorem performAccess_read_inflight {a : Access} (h : a.we = false) (s : State) :
    (performAccess a s).inflight = s.inflight := by
  rcases performAccess_cases a s with ⟨-, e⟩ | ⟨-, hw, -⟩ | ⟨-, -, e⟩
  · simp [e]
  · simp [h] at hw
  · simp [e]

/-- What a step does to STICKY, ERR and the in-flight command: a reset; nothing, or an access,
which leaves both and issues a command at rest only; or the completion. -/
theorem step_error_cases {s t : State} (h : step s = .next t) :
    (∃ a rest, s.pending = .reset a :: rest ∧ t = s.resetBlock.setPending rest) ∨
    (t.sticky = s.sticky ∧ t.err = s.err ∧ (s.inflight = none ∨ t.inflight = s.inflight)) ∨
    (∃ w s', s.inflight = some w ∧ (s' = s ∨ s' = s.countBusyRead) ∧
      completeCommand w s' = .next t) := by
  rcases step_cases s with ⟨a, rest, hp, e⟩ | ⟨hi, -, e⟩ | ⟨a, rest, hi, -, e⟩ |
    ⟨w, a, rest, hi, -, hr, -, e⟩ | ⟨w, a, rest, hi, -, -, -, e⟩ | ⟨w, hi, -, e⟩ <;> rw [e] at h
  · cases h
    exact .inl ⟨a, rest, hp, rfl⟩
  · cases h
    exact .inr (.inl ⟨rfl, rfl, .inl hi⟩)
  · cases h
    obtain ⟨hs, he, -⟩ := performAccess_frame (s.setPending rest) a
    exact .inr (.inl ⟨hs, he, .inl hi⟩)
  · cases h
    obtain ⟨hs, he, -⟩ := performAccess_frame (s.setPending rest) a
    obtain ⟨hwe, -⟩ := (Access.isStatusRead_iff a).1 hr
    exact .inr (.inl ⟨hs, he, .inr (performAccess_read_inflight hwe _)⟩)
  · exact .inr (.inr ⟨w, _, hi, .inr rfl, h⟩)
  · exact .inr (.inr ⟨w, _, hi, .inl rfl, h⟩)

/-- The completion a step runs: its error is that of the state the step starts from, since a
counted `STATUS` read is no operand. -/
theorem errorOf_step_completion {s s' : State} (h : s' = s ∨ s' = s.countBusyRead) (w : Word) :
    errorOf w s' = errorOf w s := by
  rcases h with rfl | rfl <;> rfl

/-- At rest the host's next access is performed. -/
theorem step_access_at_rest {s : State} {a : Access} {rest : List HostInput}
    (hi : s.inflight = none) (hp : s.pending = .access a :: rest) :
    step s = .next (performAccess a (s.setPending rest)) := by
  simp [step, fetch, hi, restStep, hp]

theorem performAccess_cmd_write {a : Access} (hw : a.we = true) (hs : a.size = 2#2)
    (ha : a.addr = 0x000#9) (s : State) :
    performAccess a s = (s.issue a.wdata).reply .written := by
  have hl : a.legal = true := (Access.legal_iff a).2 ⟨hs, by simp [ha]⟩
  simp [performAccess, hl, hw, writeWindow, (regionOf_eq_cmd _).2 ha, writeRegion]

/-- Bit 0 of `STATUS` is BUSY (R19). -/
theorem statusWord_bit_zero (s : State) : (statusWord s).getLsbD 0 = s.busy := by
  simp [statusWord]

/-! ### The statements -/

/-- Settles O25: the first and third clauses are those of a completion, the second the cases of a
step. -/
theorem stickySetByErrorsClearedByClrerrOrReset :
    Obligations.StickySetByErrorsClearedByClrerrOrReset := by
  unfold Obligations.StickySetByErrorsClearedByClrerrOrReset
  refine ⟨fun w s t h he => ?_, fun s t h hs ht => ?_, fun i s t hi h he => ?_, fun s => rfl, rfl⟩
  · rcases completeCommand_sticky h with ⟨-, hset⟩ | ⟨hno, -⟩
    · exact hset
    · exact absurd hno he
  · rcases step_error_cases h with ⟨a, rest, hp, -⟩ | ⟨hkeep, -⟩ | ⟨w, s', hw, hs', hc⟩
    · exact .inl ⟨a, rest, hp⟩
    · simp [hkeep, hs] at ht
    · have hs1 : s'.sticky = true := by rcases hs' with rfl | rfl <;> exact hs
      rcases completeCommand_sticky hc with ⟨-, hset⟩ | ⟨-, rfl | hkeep⟩
      · simp [hset] at ht
      · exact .inr hw
      · simp [hkeep, hs1] at ht
  · rcases exec_cases i s with ⟨hne, hx⟩ | ⟨hclr, -⟩ | ⟨-, -, u, hx, hu⟩
    · obtain rfl := (raise_next_iff s t _).1 (hx.symm.trans h)
      exact absurd he hne
    · exact absurd hclr hi
    · obtain rfl := (succeed_next_iff u t).1 (hx.symm.trans h)
      exact hu.sticky

/-- Settles O27, by the cases of a step. -/
theorem errIsWrittenAtEveryCompletion : Obligations.ErrIsWrittenAtEveryCompletion := by
  unfold Obligations.ErrIsWrittenAtEveryCompletion
  refine ⟨fun s t hi hr h => ?_, fun s t w hi hr h => ?_, fun s t h => ?_, rfl⟩
  · rcases step_error_cases h with ⟨a, rest, hp, -⟩ | ⟨-, he, -⟩ | ⟨w, s', hw, -⟩
    · exact absurd ⟨a, rest, hp⟩ hr
    · exact he
    · simp [hi] at hw
  · rcases step_error_cases h with ⟨a, rest, hp, -⟩ | ⟨-, he, hrest | hsame⟩ | ⟨x, s', hx, hs', hc⟩
    · exact absurd ⟨a, rest, hp⟩ hr
    · simp [hi] at hrest
    · exact .inr ⟨hsame.trans hi, he⟩
    · obtain rfl : w = x := by simpa [hi] using hx
      obtain ⟨he, hdone⟩ := completeCommand_err hc
      exact .inl ⟨hdone, he.trans (errorOf_step_completion hs' w)⟩
  · rcases step_error_cases h with ⟨a, rest, -, rfl⟩ | ⟨-, he, -⟩ | ⟨w, s', -, -, hc⟩
    · exact .inr (by simp [State.reset, ErrorCode.code])
    · exact .inl he
    · obtain ⟨he, -⟩ := completeCommand_err hc
      exact .inr (he ▸ errorOf_code_mem w s')

/-- Settles O6: the access is performed at rest, and its region is `CMD`. -/
theorem cmdWriteIssuesTheCommand : Obligations.CmdWriteIssuesTheCommand := by
  unfold Obligations.CmdWriteIssuesTheCommand
  intro s a rest hi hp hw hs ha
  refine ⟨?_, statusWord_bit_zero _, rfl⟩
  rw [step_access_at_rest hi hp, performAccess_cmd_write hw hs ha]
  rfl

end Sys2Proof.Machine
end

section
/-! PROOFS. The host port's accesses: those that are no aligned 32-bit ones (20_memory.md R37), the
two words of a scalar register (R39), and what is reserved (R36). -/

namespace Sys2Proof.Machine

/-! ### Accesses that are not aligned 32-bit ones -/

theorem Access.legal_eq_false {a : Access} (h : a.size ≠ 2#2 ∨ a.addr.toNat % 4 ≠ 0) :
    a.legal = false := by
  rw [Bool.eq_false_iff, ne_eq, Access.legal_iff]
  tauto

theorem performAccess_of_illegal {a : Access} (h : a.legal = false) (s : State) :
    performAccess a s = s.reply .busError := by
  simp [performAccess, h]

theorem Access.isStatusRead_of_illegal {a : Access} (h : a.legal = false) :
    a.isStatusRead = false := by
  simp [Access.isStatusRead, h]

/-- With a command in flight every access but a `STATUS` read waits for the completion (R44). -/
theorem step_access_waits {s : State} {w : Word} {a : Access} {rest : List HostInput}
    (hi : s.inflight = some w) (hp : s.pending = .access a :: rest) (ha : a.isStatusRead = false) :
    step s = completeCommand w s := by
  simp [step, fetch, hi, busyStep, hp, ha]

/-! ### The two words of a scalar register -/

/-- The words of `R[n]` stand at 0x040 + 8n and 0x044 + 8n (R35). -/
theorem readWindow_scalarLow (s : State) (n : Fin 8) :
    readWindow s (BitVec.ofNat 9 (0x040 + 8 * n.val)) = scalarHalf (s.getR n) false := by
  rw [readWindow, regionOf_scalarLow, readRegion]

theorem readWindow_scalarHigh (s : State) (n : Fin 8) :
    readWindow s (BitVec.ofNat 9 (0x044 + 8 * n.val)) = scalarHalf (s.getR n) true := by
  rw [readWindow, regionOf_scalarHigh, readRegion]

theorem writeWindow_scalarLow (s : State) (n : Fin 8) (w : Word) :
    writeWindow s (BitVec.ofNat 9 (0x040 + 8 * n.val)) w =
      s.setR n (putHalf (s.getR n) false w) := by
  rw [writeWindow, regionOf_scalarLow, writeRegion]

theorem writeWindow_scalarHigh (s : State) (n : Fin 8) (w : Word) :
    writeWindow s (BitVec.ofNat 9 (0x044 + 8 * n.val)) w =
      s.setR n (putHalf (s.getR n) true w) := by
  rw [writeWindow, regionOf_scalarHigh, writeRegion]

/-- The last of two writes to one register stands. -/
@[simp] theorem State.setR_setR_same (s : State) (n : RReg) (x y : Scalar) :
    (s.setR n x).setR n y = s.setR n y := by
  simp [State.setR]

@[simp] theorem scalarHalf_high_putHalf_low (x : Scalar) (w : Word) :
    scalarHalf (putHalf x false w) true = scalarHalf x true :=
  scalarHalf_putHalf_other x false w

@[simp] theorem scalarHalf_low_putHalf_high (x : Scalar) (w : Word) :
    scalarHalf (putHalf x true w) false = scalarHalf x false :=
  scalarHalf_putHalf_other x true w

/-- The two halves are written independently: both orders give one scalar. -/
theorem putHalf_comm (x : Scalar) (w u : Word) :
    putHalf (putHalf x false w) true u = putHalf (putHalf x true u) false w := by
  refine scalar_ext_halves fun high => ?_
  cases high <;> simp

theorem scalar_toNat_eq_halves (x : Scalar) :
    x.toNat = (scalarHalf x true).toNat * 2 ^ 32 + (scalarHalf x false).toNat := by
  rw [scalarHalf_low, scalarHalf_high]
  omega

/-! ### What is reserved -/

/-- Reserved offsets read 0 and ignore writes, and answer as any legal access does (R36). -/
theorem performAccess_reserved {a : Access} (hl : a.legal = true)
    (hr : regionOf a.addr = .reserved) (s : State) :
    performAccess a s = s.reply (if a.we then .written else .data 0#32) := by
  cases hw : a.we <;> simp [performAccess, hl, hw, readWindow, writeWindow, hr, readRegion,
    writeRegion]

/-- A field of a word, placed at bit `lo`, has no bits outside its own. -/
theorem getLsbD_placedField_outside {n lo k : Nat} (x : BitVec n) (h : k < lo ∨ lo + n ≤ k) :
    ((x.setWidth 32) <<< lo).getLsbD k = false := by
  rcases h with h | h
  · simp [h]
  · simp [BitVec.getLsbD_of_ge x (k - lo) (by omega)]

/-- Bits 3:2 and 31:12 of `STATUS` belong to no field (R19). -/
theorem statusWord_reserved_bit (s : State) {k : Nat} (h : k = 2 ∨ k = 3 ∨ 12 ≤ k) :
    (statusWord s).getLsbD k = false := by
  have busy := getLsbD_placedField_outside (lo := 0) (k := k) (BitVec.ofBool s.busy) (by omega)
  rw [BitVec.shiftLeft_zero] at busy
  simp (disch := omega) only [statusWord, BitVec.getLsbD_or, busy, getLsbD_placedField_outside,
    Bool.or_self]

theorem readWindow_status (s : State) : readWindow s 0x004#9 = statusWord s := rfl

theorem readWindow_ilen (s : State) : readWindow s 0x008#9 = s.ilen.setWidth 32 := rfl

theorem readWindow_olen (s : State) : readWindow s 0x00C#9 = s.olen.setWidth 32 := rfl

/-- The bits above a 7-bit length read 0. -/
theorem getLsbD_length_reserved (x : BitVec 7) {k : Nat} (h : 7 ≤ k) :
    (x.setWidth 32).getLsbD k = false := by
  simp [BitVec.getLsbD_of_ge x k h]

/-! ### The statements -/

/-- Settles O8: at rest the access is performed and is a bus error; it is no `STATUS` read, so
with a command in flight it waits. -/
theorem illegalAccessIsABusError : Obligations.IllegalAccessIsABusError := by
  unfold Obligations.IllegalAccessIsABusError
  intro s a rest hp ha
  have hl := Access.legal_eq_false ha
  refine ⟨fun hi => ?_, fun w hi => step_access_waits hi hp (Access.isStatusRead_of_illegal hl)⟩
  rw [step_access_at_rest hi hp, performAccess_of_illegal hl]
  rfl

/-- Settles O11: a write puts one half of the register, and a scalar is its two halves. -/
theorem scalarRegisterWords : Obligations.ScalarRegisterWords := by
  unfold Obligations.ScalarRegisterWords
  intro s n w x
  refine ⟨readWindow_scalarLow s n, readWindow_scalarHigh s n,
    ⟨putHalf (s.getR n) false w, writeWindow_scalarLow s n w,
      scalarHalf_putHalf_same _ false w, scalarHalf_high_putHalf_low _ w⟩,
    ⟨putHalf (s.getR n) true w, writeWindow_scalarHigh s n w,
      scalarHalf_putHalf_same _ true w, scalarHalf_low_putHalf_high _ w⟩,
    putHalf (putHalf (s.getR n) false w) true x, ?_, ?_, ?_⟩
  · rw [scalar_toNat_eq_halves]
    simp
  · rw [writeWindow_scalarLow, writeWindow_scalarHigh, State.getR_setR_same,
      State.setR_setR_same]
    rfl
  · rw [writeWindow_scalarHigh, writeWindow_scalarLow, State.getR_setR_same,
      State.setR_setR_same, putHalf_comm]
    rfl

/-- Settles O14: the access falls in the reserved region, and the reserved bits lie outside every
field. -/
theorem reservedOffsetsAndBitsReadZero : Obligations.ReservedOffsetsAndBitsReadZero := by
  unfold Obligations.ReservedOffsetsAndBitsReadZero
  intro s a rest hi hp hs h4
  refine ⟨fun hres => ?_, fun k hk => ?_, fun k hk => ?_⟩
  · rw [step_access_at_rest hi hp, performAccess_reserved ((Access.legal_iff a).2 ⟨hs, h4⟩)
      (regionOf_reserved a.addr hres)]
    rfl
  · rw [readWindow_ilen, readWindow_olen]
    exact ⟨getLsbD_length_reserved s.ilen hk, getLsbD_length_reserved s.olen hk⟩
  · rw [readWindow_status]
    exact statusWord_reserved_bit s hk

end Sys2Proof.Machine
end

section
/-! PROOFS. Legality of a command word, seen as row selection and field by field
(30_encoding.md R53, R54). -/

namespace Sys2Proof

/-! ### A row's mask and match, from the fields it uses -/

/-- The mask bits of one field: a used field is free, an unused one is compared. -/
def maskField (n : Nat) (used : Bool) : BitVec n :=
  if used then 0#n else BitVec.allOnes n

/-- The mask of a row that uses the fields `u`: the opcode and the reserved bits are compared, and
of the operands those the row does not use. -/
def Uses.mask (u : Uses) : Fields where
  op       := BitVec.allOnes 8
  d        := maskField 3 u.d
  s        := maskField 3 u.s
  t        := maskField 3 u.t
  imm      := maskField 4 u.imm
  m        := maskField 1 u.m
  reserved := BitVec.allOnes 10

/-- The fields of a word that is an opcode and nothing else. -/
def Fields.ofOpcode (op : BitVec 8) : Fields := ⟨op, 0, 0, 0, 0, 0, 0⟩

/-- Every field that a row with the uses `u` does not use is 0. -/
def Fields.UnusedAreZero (f : Fields) (u : Uses) : Prop :=
  (u.d = false → f.d = 0) ∧ (u.s = false → f.s = 0) ∧ (u.t = false → f.t = 0) ∧
    (u.imm = false → f.imm = 0) ∧ (u.m = false → f.m = 0)

theorem and_maskField_eq_zero_iff {n : Nat} (x : BitVec n) (used : Bool) :
    x &&& maskField n used = 0 ↔ (used = false → x = 0) := by
  cases used <;> simp [maskField]

/-- Masked by a row's mask, the fields are an opcode alone exactly when they have that opcode and
every other compared field is 0. -/
theorem Fields.mask_eq_ofOpcode_iff (f : Fields) (u : Uses) (op : BitVec 8) :
    f.mask u.mask = .ofOpcode op ↔ f.op = op ∧ f.reserved = 0 ∧ f.UnusedAreZero u := by
  simp only [Fields.mask, Uses.mask, Fields.ofOpcode, Fields.mk.injEq, Fields.UnusedAreZero,
    and_maskField_eq_zero_iff, BitVec.and_allOnes]
  tauto

/-- The match value of every row is its opcode, and its mask is that of the fields it uses. -/
theorem row_op_and_mask : ∀ r ∈ opcodeMap, fieldsOf r.op = .ofOpcode (fieldsOf r.op).op ∧
    (usesOf (fieldsOf r.op).op).map Uses.mask = some (fieldsOf r.mask) := by
  decide

/-- An assigned opcode has a row. -/
theorem exists_row_of_usesOf : ∀ op : BitVec 8, usesOf op ≠ none →
    ∃ r ∈ opcodeMap, (fieldsOf r.op).op = op := by
  decide

/-- The unassigned opcodes of R53. -/
theorem usesOf_eq_none_iff : ∀ op : BitVec 8, usesOf op = none ↔
    ∃ r ∈ [(0x00, 0x0F), (0x15, 0x1F), (0x25, 0x2F), (0x33, 0x3F), (0x43, 0x4F), (0x54, 0x5F),
      (0x65, 0x6F), (0x72, 0xFF)], r.1 ≤ op.toNat ∧ op.toNat ≤ r.2 := by
  decide

/-! ### Legality -/

/-- A word is legal exactly when some row selects it (R54). -/
theorem legal_iff_row_selects (w : Word) :
    (∃ i, decode w = .legal i) ↔ ∃ r ∈ opcodeMap, r.selectedBy w = true := by
  constructor
  · rintro ⟨i, h⟩
    obtain ⟨r, hr, hsel, -⟩ := decode_legal h
    exact ⟨r, hr, hsel⟩
  · rintro ⟨r, hr, hsel⟩
    cases h : decode w with
    | legal i => exact ⟨i, rfl⟩
    | illegal why => simp [(decode_illegal_iff w).1 ⟨why, h⟩ r hr] at hsel

/-- A row selects the words with its opcode whose reserved bits and unused fields are 0. -/
theorem selectedBy_iff_fields {r : Row} (hr : r ∈ opcodeMap) {u : Uses}
    (hu : usesOf (fieldsOf r.op).op = some u) (w : Word) :
    r.selectedBy w = true ↔ (fieldsOf w).op = (fieldsOf r.op).op ∧ (fieldsOf w).reserved = 0 ∧
      (fieldsOf w).UnusedAreZero u := by
  obtain ⟨hop, huses⟩ := row_op_and_mask r hr
  have hmask : u.mask = fieldsOf r.mask := by simpa [hu] using huses
  rw [Row.selectedBy_iff, hop, ← hmask, Fields.mask_eq_ofOpcode_iff]
  rfl

/-- Some row selects a word exactly when its opcode is assigned and its reserved bits and the
fields its row does not use are 0 (R54). -/
theorem row_selects_iff_fields (w : Word) :
    (∃ r ∈ opcodeMap, r.selectedBy w = true) ↔ (fieldsOf w).reserved = 0 ∧
      ∃ u, usesOf (fieldsOf w).op = some u ∧ (fieldsOf w).UnusedAreZero u := by
  constructor
  · rintro ⟨r, hr, hsel⟩
    obtain ⟨u, hu, -⟩ := Option.map_eq_some_iff.1 (row_op_and_mask r hr).2
    obtain ⟨hop, hres, hzero⟩ := (selectedBy_iff_fields hr hu w).1 hsel
    exact ⟨hres, u, hop ▸ hu, hzero⟩
  · rintro ⟨hres, u, hu, hzero⟩
    obtain ⟨r, hr, hop⟩ := exists_row_of_usesOf (fieldsOf w).op (by simp [hu])
    exact ⟨r, hr, (selectedBy_iff_fields hr (hop ▸ hu) w).2 ⟨hop.symm, hres, hzero⟩⟩

/-- The completion of an illegal word raises ILLEGAL_COMMAND, and nothing else (R54). -/
theorem completeCommand_of_not_legal {w : Word} (h : ¬ ∃ i, decode w = .legal i)
    (s : Machine.State) :
    Machine.completeCommand w s = Machine.raise .illegalCommand s := by
  rcases Machine.completeCommand_cases w s with ⟨i, hi, -⟩ | ⟨-, -, hc⟩
  · exact absurd ⟨i, hi⟩ h
  · exact hc

/-! ### The statement -/

/-- Settles O3: a row's mask compares the opcode, the reserved bits and the fields it does not
use, and an illegal word's completion is the error entry. -/
theorem legalExactlyWhenARowSelects : Obligations.LegalExactlyWhenARowSelects := by
  unfold Obligations.LegalExactlyWhenARowSelects
  intro w
  refine ⟨?_, ?_, usesOf_eq_none_iff _, completeCommand_of_not_legal⟩
  · simpa [Row.selectedBy] using legal_iff_row_selects w
  · exact (legal_iff_row_selects w).trans (row_selects_iff_fields w)

end Sys2Proof
end

section
/-! PROOFS. The codec: normalising the input (41_codec.md R60), the text forms of a value (R61),
and PARSE, FMT, HEX, URN and RAW (R62 to R66). -/

namespace Sys2Proof.Machine

open Sys2Proof.Claims

/-! ### Hex digits -/

theorem hexDigit_eq_asciiHex : ∀ n : BitVec 4, hexDigit n = asciiHex n.toNat := by decide

theorem hexDigit_hiNibble (b : Byte) : hexDigit (hiNibble b) = asciiHex (b.toNat / 16) := by
  rw [hexDigit_eq_asciiHex, hiNibble_toNat]

theorem hexDigit_loNibble (b : Byte) : hexDigit (loNibble b) = asciiHex (b.toNat % 16) := by
  rw [hexDigit_eq_asciiHex, loNibble_toNat]

theorem hexVal_lt {c : Byte} (h : isHexDigit c = true) : hexVal c < 16 := by
  simp only [isHexDigit, Bool.or_eq_true, Bool.and_eq_true, decide_eq_true_eq] at h
  unfold hexVal
  split_ifs <;> omega

theorem hexVal_getD_lt {h : List Byte} (hh : ∀ c ∈ h, isHexDigit c = true) (k : Nat) :
    hexVal (h.getD k 0) < 16 := by
  by_cases hk : k < h.length
  · rw [List.getD_eq_getElem _ _ hk]
    exact hexVal_lt (hh _ (List.getElem_mem hk))
  · rw [List.getD_eq_default _ _ (by omega)]
    decide

/-! ### Normalising the input -/

/-- The lead stands at byte 0 of the input's `n` bytes exactly when it stands at byte 0 of the
buffer and `n` reaches it. -/
theorem stripUrn_take (b : Buffer) {n : Nat} (hn : n ≤ 64) :
    stripUrn (b.toList.take n) =
      if 9 ≤ n ∧ b.toList.take 9 = urnLead then (b.toList.take n).drop 9
      else b.toList.take n := by
  have hlen : (b.toList.take n).length = n := by simpa using hn
  have hlead : (9 ≤ n ∧ (b.toList.take n).take 9 = urnLead) ↔
      (9 ≤ n ∧ b.toList.take 9 = urnLead) :=
    and_congr_right fun h9 => by rw [List.take_take, min_eq_left h9]
  simp only [stripUrn, hlen, hlead]

/-- No byte overflows where every character is a hex digit. -/
theorem packHex_toNat {h : List Byte} (hh : ∀ c ∈ h, isHexDigit c = true) (k : Fin 16) :
    (packHex h)[k].toNat =
      hexVal (h.getD (2 * k.val) 0) * 16 + hexVal (h.getD (2 * k.val + 1) 0) := by
  have hhi := hexVal_getD_lt hh (2 * k.val)
  have hlo := hexVal_getD_lt hh (2 * k.val + 1)
  simp only [packHex, Fin.getElem_fin, Vector.getElem_ofFn, BitVec.toNat_ofNat]
  omega

section
variable {s : State}

/-! ### The commands that read the input -/

theorem exec_parse_of_some {u : Value} (h : normalise s.ibuf s.ilen = some u) (d : VReg) :
    exec (.parse d) s = succeed (s.setV d u) := by
  simp [exec, execParse, State.input, h]

theorem exec_parse_of_none (h : normalise s.ibuf s.ilen = none) (d : VReg) :
    exec (.parse d) s = raise .invalidLength s := by
  simp [exec, execParse, State.input, h]

theorem exec_forin_of_none (h : normalise s.ibuf s.ilen = none) (d : VReg) :
    exec (.forin d) s = raise .invalidForeignFormat s := by
  simp [exec, execForin, State.input, h]

theorem exec_valid_of_none (h : normalise s.ibuf s.ilen = none) (d : RReg) :
    exec (.valid d) s = succeed (s.setR d 0#64) := by
  simp [exec, execValid, State.input, h, boolScalar]

theorem exec_isnilin_of_none (h : normalise s.ibuf s.ilen = none) (d : RReg) :
    exec (.isnilin d) s = succeed (s.setR d 0#64) := by
  simp [exec, execIsnilin, State.input, h, boolScalar]

end

/-! ### Output -/

section
variable (src : VReg) (s : State)

theorem exec_fmt : exec (.fmt src) s = succeed (s.setOut (canon s.v[src])) := rfl

theorem exec_hex : exec (.hex src) s = succeed (s.setOut (hexs s.v[src].toList)) := by
  rw [← slice_all]
  rfl

theorem exec_urn : exec (.urn src) s = succeed (s.setOut (urnLead ++ canon s.v[src])) := rfl

theorem exec_raw : exec (.raw src) s = succeed (s.setOut s.v[src].toList) := rfl

end

/-- A command whose output is `bs` (R26, R29), with `OLEN` written out. -/
theorem succeed_setOut (s : State) {bs : List Byte} {n : BitVec 7}
    (h : BitVec.ofNat 7 bs.length = n) :
    succeed (s.setOut bs) = .next (done { s with obuf := paddedBuffer bs, olen := n }) := by
  subst h
  rfl

theorem byteAt_paddedBuffer (bs : List Byte) {k : Nat} (hk : k < 64) :
    byteAt (paddedBuffer bs) k = bs.getD k 0#8 := by
  rw [byteAt, List.getD_eq_getElem _ _ (by simpa using hk), Vector.getElem_toList,
    paddedBuffer_getElem _ _ hk]

theorem zeroFrom_paddedBuffer {bs : List Byte} {k : Nat} (h : bs.length ≤ k) :
    ZeroFrom (paddedBuffer bs) k :=
  fun j hj => paddedBuffer_zero_from bs j.val j.isLt (h.trans hj)

theorem paddedBuffer_append_take {lead : List Byte} (rest : List Byte) (h : lead.length ≤ 64) :
    (paddedBuffer (lead ++ rest)).toList.take lead.length = lead := by
  apply List.ext_getElem
  · simpa using h
  · intro k hk hlead
    simp [List.getElem?_append_left hlead, hlead]

/-- Byte `i` of a list gives digits `2i` and `2i + 1` of its string. -/
theorem hexs_getD (bs : List Byte) (i : Nat) (hi : i < bs.length) :
    (hexs bs).getD (2 * i) 0#8 = hexDigit (hiNibble bs[i]) ∧
    (hexs bs).getD (2 * i + 1) 0#8 = hexDigit (loNibble bs[i]) := by
  induction bs generalizing i with
  | nil => simp at hi
  | cons b bs ih =>
    cases i with
    | zero => exact ⟨rfl, rfl⟩
    | succ i => exact ih i (by simpa using hi)

theorem hexFrom_paddedBuffer {bs : List Byte} (h : bs.length ≤ 32) :
    HexFrom (paddedBuffer (hexs bs)) bs := by
  intro i
  obtain ⟨hhi, hlo⟩ := hexs_getD bs i.val i.isLt
  rw [byteAt_paddedBuffer _ (by omega), byteAt_paddedBuffer _ (by omega), hhi, hlo,
    hexDigit_hiNibble, hexDigit_loNibble]
  exact ⟨rfl, rfl⟩

/-- The digits of byte `i` stand at `digitAt i` of the canonical string (R61). -/
theorem canon_getD_digit (u : Value) (i : Fin 16) :
    (canon u).getD (digitAt i.val) 0#8 = hexDigit (hiNibble u[i]) ∧
    (canon u).getD (digitAt i.val + 1) 0#8 = hexDigit (loNibble u[i]) := by
  obtain ⟨b0, b1, b2, b3, b4, b5, b6, b7, b8, b9, b10, b11, b12, b13, b14, b15, rfl⟩ := value_eta u
  fin_cases i <;> simp [canon, slice, hexs, hex2, digitAt]

/-- The four hyphens of the canonical string (R61). -/
theorem canon_getD_hyphen (u : Value) : ∀ h ∈ [8, 13, 18, 23], (canon u).getD h 0#8 = hyphen := by
  obtain ⟨b0, b1, b2, b3, b4, b5, b6, b7, b8, b9, b10, b11, b12, b13, b14, b15, rfl⟩ := value_eta u
  simp only [List.forall_mem_cons, List.not_mem_nil, false_imp_iff, implies_true, and_true]
  exact ⟨rfl, rfl, rfl, rfl⟩

theorem digitAt_le (i : Fin 16) : digitAt i.val ≤ 34 := by
  revert i
  decide

/-- The canonical string stands after its lead. -/
theorem canonFrom_paddedBuffer {lead : List Byte} (u : Value) (h : lead.length ≤ 28) :
    CanonFrom (paddedBuffer (lead ++ canon u)) lead.length u := by
  have hbyte : ∀ k < 36, byteAt (paddedBuffer (lead ++ canon u)) (lead.length + k) =
      (canon u).getD k 0#8 := fun k hk => by
    rw [byteAt_paddedBuffer _ (by omega), List.getD_append_right _ _ _ _ (by omega),
      Nat.add_sub_cancel_left]
  constructor
  · intro i
    have hi := digitAt_le i
    obtain ⟨hhi, hlo⟩ := canon_getD_digit u i
    rw [Nat.add_assoc, hbyte _ (by omega), hbyte _ (by omega), hhi, hlo, hexDigit_hiNibble,
      hexDigit_loNibble]
    exact ⟨rfl, rfl⟩
  · intro k hk
    have hlt : k < 36 := by
      simp only [List.mem_cons, List.not_mem_nil, or_false] at hk
      omega
    rw [hbyte k hlt, canon_getD_hyphen u k hk, hyphen]

/-! ### The command words -/

/-- The words of the codec's commands, one per register (R53). -/
theorem decode_word_codec : ∀ n : Fin 8,
    decode (word 0x10#8 n) = .legal (.parse n) ∧ decode (word 0x11#8 0 n) = .legal (.fmt n) ∧
    decode (word 0x12#8 0 n) = .legal (.hex n) ∧ decode (word 0x13#8 0 n) = .legal (.urn n) ∧
    decode (word 0x14#8 0 n) = .legal (.raw n) := by
  decide

/-! ### The statements -/

/-- Settles O33, by the three cases of normalisation and each command's answer to a failure. -/
theorem normaliseFollowsItsSteps : Obligations.NormaliseFollowsItsSteps := by
  unfold Obligations.NormaliseFollowsItsSteps
  refine ⟨normalise_too_long, fun b n h16 => ⟨_, normalise_raw b n h16, fun k => by simp⟩,
    fun b n body h h64 h16 hbody hh => ?_, by decide, by decide, fun d s hs => ?_⟩
  · have hdigits : h = (stripUrn (b.toList.take n.toNat)).filter isHexDigit := by
      rw [hh, hbody, stripUrn_take b h64, urnLead]
      congr 1
      funext c
      simp [isHexDigit, Bool.or_assoc]
    rw [normalise_string b n h64 h16, ← hdigits]
    refine ⟨fun hne => if_neg hne, fun heq => ⟨_, if_pos heq, packHex_toNat fun c hc => ?_⟩⟩
    rw [hdigits] at hc
    exact (List.mem_filter.1 hc).2
  · exact ⟨exec_parse_of_none hs d, exec_forin_of_none hs d, exec_valid_of_none hs d,
      exec_isnilin_of_none hs d⟩

/-- Settles O35: the canonical string with no lead. -/
theorem fmtWritesTheCanonicalString : Obligations.FmtWritesTheCanonicalString := by
  unfold Obligations.FmtWritesTheCanonicalString
  intro src s
  obtain ⟨-, hword, -⟩ := decode_word_codec src
  have hlen := canon_length s.v[src]
  exact ⟨hword, _, (exec_fmt src s).trans (succeed_setOut s (by rw [hlen])),
    canonFrom_paddedBuffer (lead := []) _ (by decide), zeroFrom_paddedBuffer hlen.le⟩

/-- Settles O36: the digits of all sixteen bytes. -/
theorem hexWritesTheDigits : Obligations.HexWritesTheDigits := by
  unfold Obligations.HexWritesTheDigits
  intro src s
  obtain ⟨-, -, hword, -⟩ := decode_word_codec src
  have hlen : (hexs s.v[src].toList).length = 32 := by rw [hexs_length, Vector.length_toList]
  exact ⟨hword, _, (exec_hex src s).trans (succeed_setOut s (by rw [hlen])),
    hexFrom_paddedBuffer (by simp), zeroFrom_paddedBuffer hlen.le⟩

/-- Settles O37: the canonical string after the lead `urn:uuid:`. -/
theorem urnWritesTheLeadAndTheString : Obligations.UrnWritesTheLeadAndTheString := by
  unfold Obligations.UrnWritesTheLeadAndTheString
  intro src s
  obtain ⟨-, -, -, hword, -⟩ := decode_word_codec src
  have hlen : (urnLead ++ canon s.v[src]).length = 45 := by
    rw [List.length_append, canon_length]
    rfl
  exact ⟨hword, _, (exec_urn src s).trans (succeed_setOut s (by rw [hlen])),
    paddedBuffer_append_take (lead := urnLead) _ (by decide),
    canonFrom_paddedBuffer (lead := urnLead) _ (by decide), zeroFrom_paddedBuffer hlen.le⟩

/-- Settles O34, by the two outcomes of normalisation. -/
theorem parseImportsTheInput : Obligations.ParseImportsTheInput := by
  unfold Obligations.ParseImportsTheInput
  intro d s
  obtain ⟨hword, -⟩ := decode_word_codec d
  exact ⟨hword, fun u h => exec_parse_of_some h d, fun h => exec_parse_of_none h d⟩

/-- Settles O38: the value's bytes are the output. -/
theorem rawExportsTheBytes : Obligations.RawExportsTheBytes := by
  unfold Obligations.RawExportsTheBytes
  intro src s
  obtain ⟨-, -, -, -, hword⟩ := decode_word_codec src
  have hlen : s.v[src].toList.length = 16 := Vector.length_toList ..
  exact ⟨hword, _, (exec_raw src s).trans (succeed_setOut s (by rw [Vector.length_toList])),
    fun k => by simp, zeroFrom_paddedBuffer hlen.le⟩

end Sys2Proof.Machine
end

section
/-! PROOFS. Command words written by their fields: the row a word selects is the row `decode` takes,
and each field of `word` reads back (30_encoding.md R50, R53, R58). -/

namespace Sys2Proof

open Sys2Proof.Claims

/-- No two rows share an opcode (R53). -/
theorem row_eq_of_opcode_eq {r r' : Row} (hr : r ∈ opcodeMap) (hr' : r' ∈ opcodeMap)
    (h : (fieldsOf r.op).op = (fieldsOf r'.op).op) : r = r' :=
  List.inj_on_of_nodup_map (f := fun r : Row => (fieldsOf r.op).op) (by decide) hr hr' h

/-- Every row's mask keeps the whole opcode, so a row selects only words with its opcode (R53). -/
theorem opcode_of_selectedBy {r : Row} (hr : r ∈ opcodeMap) {w : Word}
    (h : r.selectedBy w = true) : (fieldsOf w).op = (fieldsOf r.op).op := by
  obtain ⟨u, hu, -⟩ := Option.map_eq_some_iff.1 (row_op_and_mask r hr).2
  exact ((selectedBy_iff_fields hr hu w).1 h).1

/-- Decoding takes the row that selects the word: there is no other one (R54). -/
theorem decode_of_selectedBy {r : Row} (hr : r ∈ opcodeMap) {w : Word}
    (h : r.selectedBy w = true) : decode w = .legal (r.build w) := by
  obtain ⟨i, hi⟩ := (legal_iff_row_selects w).2 ⟨r, hr, h⟩
  obtain ⟨r', hr', h', rfl⟩ := decode_legal hi
  obtain rfl : r' = r := row_eq_of_opcode_eq hr' hr
    ((opcode_of_selectedBy hr' h').symm.trans (opcode_of_selectedBy hr h))
  exact hi

theorem regField_eq_of_extract {w : Word} {lo : Nat} {n : Fin 8}
    (h : w.extractLsb' lo 3 = regBits n) : regField w lo = n := by
  apply Fin.ext
  simp [regField, h, regBits]

section
variable (op : BitVec 8) (d s t : Fin 8) (imm : BitVec 4) (m : Bool)

theorem word_eq_toWord : word op d s t imm m =
    Fields.toWord ⟨op, regBits d, regBits s, regBits t, imm, BitVec.ofBool m, 0⟩ := by
  have hreg : ∀ n : Fin 8, (regBits n).setWidth 32 = BitVec.ofNat 32 n.val := by decide
  have hm : (BitVec.ofBool m).setWidth 32 = if m then 1#32 else 0#32 := by cases m <;> rfl
  simp [word, Fields.toWord, hreg, hm]

theorem fieldsOf_word : fieldsOf (word op d s t imm m) =
    ⟨op, regBits d, regBits s, regBits t, imm, BitVec.ofBool m, 0⟩ := by
  rw [word_eq_toWord, fieldsOf_toWord]

@[simp] theorem fieldD_word : fieldD (word op d s t imm m) = d :=
  regField_eq_of_extract (congrArg Fields.d (fieldsOf_word op d s t imm m))

@[simp] theorem fieldS_word : fieldS (word op d s t imm m) = s :=
  regField_eq_of_extract (congrArg Fields.s (fieldsOf_word op d s t imm m))

@[simp] theorem fieldT_word : fieldT (word op d s t imm m) = t :=
  regField_eq_of_extract (congrArg Fields.t (fieldsOf_word op d s t imm m))

@[simp] theorem fieldImm_word : fieldImm (word op d s t imm m) = imm :=
  congrArg Fields.imm (fieldsOf_word op d s t imm m)

@[simp] theorem fieldM_word : fieldM (word op d s t imm m) = m := by
  have hinj : ∀ a b, BitVec.ofBool a = BitVec.ofBool b → a = b := by decide
  exact hinj _ _ ((ofBool_fieldM _).trans (congrArg Fields.m (fieldsOf_word op d s t imm m)))

end

/-- The row of an opcode (R53). -/
def rowOf (op : BitVec 8) : Option Row := opcodeMap.find? fun r => (fieldsOf r.op).op == op

theorem rowOf_eq_some {op : BitVec 8} {r : Row} (h : rowOf op = some r) :
    r ∈ opcodeMap ∧ (fieldsOf r.op).op = op :=
  ⟨List.mem_of_find?_eq_some h, by simpa using List.find?_some h⟩

/-- A word with 0 in the fields its opcode's row does not use decodes to the row's command
(R53, R54). -/
theorem decode_word {op : BitVec 8} {r : Row} {u : Uses} {d s t : Fin 8} {imm : BitVec 4} {m : Bool}
    (hr : rowOf op = some r) (hu : usesOf op = some u)
    (h : Fields.UnusedAreZero ⟨op, regBits d, regBits s, regBits t, imm, BitVec.ofBool m, 0⟩ u) :
    decode (word op d s t imm m) = .legal (r.build (word op d s t imm m)) := by
  obtain ⟨hmem, rfl⟩ := rowOf_eq_some hr
  refine decode_of_selectedBy hmem ((selectedBy_iff_fields hmem hu _).2 ?_)
  rw [fieldsOf_word]
  exact ⟨rfl, rfl, h⟩

end Sys2Proof
end

section
/-! PROOFS. The bit field commands SETVER, SETVAR, STAMP and GETVER (42_bitfields.md R67 to R70). -/

namespace Sys2Proof.Machine

open Sys2Proof.Claims

/-! ### The command words -/

section
variable (d src : Fin 8) (imm : BitVec 4)

theorem decode_word_setver : decode (word 0x20#8 d src 0 imm) = .legal (.setver d src imm) := by
  rw [decode_word rfl rfl (by simp [Fields.UnusedAreZero, regBits])]
  simp

theorem decode_word_setvar : decode (word 0x21#8 d src) = .legal (.setvar d src) := by
  rw [decode_word rfl rfl (by simp [Fields.UnusedAreZero, regBits])]
  simp

theorem decode_word_stamp : decode (word 0x22#8 d src 0 imm) = .legal (.stamp d src imm) := by
  rw [decode_word rfl rfl (by simp [Fields.UnusedAreZero, regBits])]
  simp

theorem decode_word_getver : decode (word 0x23#8 d src) = .legal (.getver d src) := by
  rw [decode_word rfl rfl (by simp [Fields.UnusedAreZero, regBits])]
  simp

end

/-! ### What the commands do -/

section
variable {s : State}

/-- A version of R67's range is written to the nibble. -/
theorem exec_setver_of_valid {imm : BitVec 4} (h : 1 ≤ imm.toNat ∧ imm.toNat ≤ 8) (d src : VReg) :
    exec (.setver d src imm) s = succeed (s.setV d (withVersion imm s.v[src])) :=
  if_neg (by omega)

theorem exec_setver_of_invalid {imm : BitVec 4} (h : imm.toNat = 0 ∨ 9 ≤ imm.toNat)
    (d src : VReg) : exec (.setver d src imm) s = raise .unsupportedVersion s :=
  if_pos (by omega)

theorem exec_stamp_of_valid {imm : BitVec 4} (h : imm.toNat ∈ [1, 3, 4, 5, 6, 7, 8])
    (d src : VReg) : exec (.stamp d src imm) s =
      succeed (s.setV d (withRfcVariant (withVersion imm s.v[src]))) :=
  if_pos h

theorem exec_stamp_of_invalid {imm : BitVec 4}
    (h : imm.toNat = 0 ∨ imm.toNat = 2 ∨ 9 ≤ imm.toNat) (d src : VReg) :
    exec (.stamp d src imm) s = raise .unsupportedVersion s := by
  have hnot : imm.toNat ∉ [1, 3, 4, 5, 6, 7, 8] := by
    simp only [List.mem_cons, List.not_mem_nil, or_false]
    omega
  exact if_neg hnot

end

/-! ### The stamped value -/

section
variable (ver : BitVec 4) (u : Value)

theorem stamped_six :
    (withRfcVariant (withVersion ver u))[6].toNat = ver.toNat * 16 + u[6].toNat % 16 := by
  rw [withRfcVariant_ne _ 6 (by decide) (by decide), withVersion_six]

theorem stamped_eight :
    (withRfcVariant (withVersion ver u))[8].toNat = 0x80 + u[8].toNat % 64 := by
  rw [withRfcVariant_eight, withVersion_ne _ _ 8 (by decide) (by decide)]

theorem stamped_ne (k : Nat) (hk : k < 16) (h6 : k ≠ 6) (h8 : k ≠ 8) :
    (withRfcVariant (withVersion ver u))[k] = u[k] := by
  rw [withRfcVariant_ne _ k hk h8, withVersion_ne _ _ k hk h6]

end

theorem versionOf_toNat (u : Value) : (versionOf u).toNat = u[6].toNat / 16 := hiNibble_toNat _

/-! ### The statements -/

/-- Settles O40, by the two ranges of the version. -/
theorem setverWritesTheVersionNibble : Obligations.SetverWritesTheVersionNibble := by
  unfold Obligations.SetverWritesTheVersionNibble
  intro d src imm s
  refine ⟨decode_word_setver d src imm, fun h => ?_, fun h => exec_setver_of_invalid h d src⟩
  exact ⟨_, exec_setver_of_valid h d src, withVersion_six imm _,
    fun k hk => withVersion_ne imm _ k k.isLt (Fin.val_ne_of_ne hk)⟩

/-- Settles O41: byte 8 is written, and no other. -/
theorem setvarWritesTheVariantBits : Obligations.SetvarWritesTheVariantBits := by
  unfold Obligations.SetvarWritesTheVariantBits
  intro d src s
  exact ⟨decode_word_setvar d src, _, rfl, withRfcVariant_eight s.v[src],
    fun k hk => withRfcVariant_ne _ k k.isLt (Fin.val_ne_of_ne hk)⟩

/-- Settles O42: both writes for R69's versions, and the error entry for every other. -/
theorem stampWritesVersionAndVariant : Obligations.StampWritesVersionAndVariant := by
  unfold Obligations.StampWritesVersionAndVariant
  intro d src imm s
  refine ⟨decode_word_stamp d src imm, fun h => ?_, fun h => exec_stamp_of_invalid h d src⟩
  exact ⟨_, exec_stamp_of_valid h d src, stamped_six imm _, stamped_eight imm _,
    fun k h6 h8 => stamped_ne imm _ k k.isLt (Fin.val_ne_of_ne h6) (Fin.val_ne_of_ne h8)⟩

/-- Settles O44: zero-extension keeps the nibble's value. -/
theorem getverReadsTheVersionNibble : Obligations.GetverReadsTheVersionNibble := by
  unfold Obligations.GetverReadsTheVersionNibble
  intro d src s
  refine ⟨decode_word_getver d src, _, rfl, ?_⟩
  rw [BitVec.toNat_setWidth_of_le (by decide)]
  exact versionOf_toNat s.v[src]

end Sys2Proof.Machine
end

section
/-! PROOFS. The packers PACKV1, PACKV6 and PACKV7 (43_packers.md R72 to R75): the bytes of an
integer sum back to it, and each layout places the time's bytes and copies its tail. -/

namespace Sys2Proof.Machine

open Sys2Proof.Claims

/-! ### An integer and its bytes (R11) -/

theorem bytesBe_succ_toList (x n : Nat) :
    (bytesBe x (n + 1)).toList = BitVec.ofNat 8 (x / 256 ^ n) :: (bytesBe x n).toList := by
  have hweight : ∀ j : Nat, n + 1 - 1 - (j + 1) = n - 1 - j := fun j => by omega
  simp only [bytesBe, Vector.toList_ofFn, List.ofFn_succ, Nat.pow_mul, hweight, Fin.val_succ]
  rfl

/-- Induction on the number of bytes: the first one is the quotient by the weight of the rest. -/
theorem sumBe_bytesBe (x n : Nat) : sumBe (bytesBe x n).toList = x % 256 ^ n := by
  induction n with
  | zero => exact (Nat.mod_one x).symm
  | succ n ih =>
    calc sumBe (bytesBe x (n + 1)).toList
        = x / 256 ^ n % 256 * 256 ^ n + x % 256 ^ n := by
          rw [bytesBe_succ_toList, sumBe, ih, Vector.length_toList, BitVec.toNat_ofNat]
      _ = x % 256 ^ (n + 1) := by
          rw [Nat.mod_pow_succ, Nat.add_comm, Nat.mul_comm]

/-- The Gregorian ticks (R72) from their eight bytes. -/
theorem sumBe_bytesBe_gregorianTicks (x : Scalar) :
    sumBe (bytesBe (gregorianTicks x).toNat 8).toList = (x.toNat + epoch) % 2 ^ 64 := by
  rw [sumBe_bytesBe, gregorianTicks_toNat, epochOffset_toNat, epoch]
  exact Nat.mod_mod ..

/-! ### Where a layout's time stands, most significant byte first -/

/-- Time-high, time-mid and time-low of a version 1 value (R73). -/
def timeBytesV1 (u : Value) : List Byte := [u[6], u[7], u[4], u[5], u[0], u[1], u[2], u[3]]

/-- The time of a version 6 value (R74). -/
def timeBytesV6 (u : Value) : List Byte := [u[0], u[1], u[2], u[3], u[4], u[5], u[6], u[7]]

/-- The milliseconds of a version 7 value (R75). -/
def timeBytesV7 (u : Value) : List Byte := [u[0], u[1], u[2], u[3], u[4], u[5]]

section
variable (x : Scalar) (u : Value)

theorem timeBytesV1_layoutV1 : timeBytesV1 (layoutV1 x u) = (bytesBe x.toNat 8).toList := rfl

theorem timeBytesV6_layoutV6 : timeBytesV6 (layoutV6 x u) = (bytesBe x.toNat 8).toList := rfl

theorem timeBytesV7_layoutV7 :
    timeBytesV7 (layoutV7 x u) = (bytesBe (x.toNat % 2 ^ 48) 6).toList := rfl

/-! ### What a layout copies -/

theorem layoutV1_getElem_of_ge (k : Nat) (hk : k < 16) (h : 8 ≤ k) : (layoutV1 x u)[k] = u[k] := by
  interval_cases k <;> rfl

theorem layoutV6_getElem_of_ge (k : Nat) (hk : k < 16) (h : 8 ≤ k) : (layoutV6 x u)[k] = u[k] := by
  interval_cases k <;> rfl

theorem layoutV7_getElem_of_ge (k : Nat) (hk : k < 16) (h : 6 ≤ k) : (layoutV7 x u)[k] = u[k] := by
  interval_cases k <;> rfl

end

/-! ### The multicast bit (R73, R74) -/

section
variable (m : Bool) (u : Value)

theorem withMulticast_ten :
    (withMulticast m u)[10] = u[10] ||| (if m then 0x01#8 else 0x00#8) := by
  cases m with
  | false => exact BitVec.or_zero.symm
  | true => exact Vector.getElem_set_self (by decide)

theorem withMulticast_ne (k : Nat) (hk : k < 16) (h : k ≠ 10) : (withMulticast m u)[k] = u[k] := by
  cases m with
  | false => rfl
  | true => exact Vector.getElem_set_ne (by decide) hk h.symm

theorem timeBytesV1_withMulticast : timeBytesV1 (withMulticast m u) = timeBytesV1 u := by
  simp [timeBytesV1, withMulticast_ne]

theorem timeBytesV6_withMulticast : timeBytesV6 (withMulticast m u) = timeBytesV6 u := by
  simp [timeBytesV6, withMulticast_ne]

/-- A layout that copies bytes 8 to 15 copies them still, but for the multicast bit. -/
theorem withMulticast_copies {p u : Value} (h : ∀ (k : Nat) (hk : k < 16), 8 ≤ k → p[k] = u[k]) :
    (∀ k : Fin 16, 8 ≤ k.val → k ≠ 10 → (withMulticast m p)[k] = u[k]) ∧
    (withMulticast m p)[10] = u[10] ||| (if m then 0x01#8 else 0x00#8) :=
  ⟨fun k h8 h10 => (withMulticast_ne m p k k.isLt (Fin.val_ne_of_ne h10)).trans (h k k.isLt h8),
    by rw [withMulticast_ten, h 10 (by decide) (by decide)]⟩

end

/-! ### The packed time (R72 to R75) -/

section
variable (x : Scalar) (u : Value) (m : Bool)

theorem sumBe_timeBytesV1_packed :
    sumBe (timeBytesV1 (withMulticast m (layoutV1 (gregorianTicks x) u))) =
      (x.toNat + epoch) % 2 ^ 64 := by
  rw [timeBytesV1_withMulticast, timeBytesV1_layoutV1, sumBe_bytesBe_gregorianTicks]

theorem sumBe_timeBytesV6_packed :
    sumBe (timeBytesV6 (withMulticast m (layoutV6 (gregorianTicks x) u))) =
      (x.toNat + epoch) % 2 ^ 64 := by
  rw [timeBytesV6_withMulticast, timeBytesV6_layoutV6, sumBe_bytesBe_gregorianTicks]

theorem sumBe_timeBytesV7_packed :
    sumBe (timeBytesV7 (layoutV7 x u)) = x.toNat % 2 ^ 48 := by
  rw [timeBytesV7_layoutV7, sumBe_bytesBe]
  exact Nat.mod_mod ..

end

/-! ### The command words -/

section
variable (d src t : Fin 8) (m : Bool)

theorem decode_word_packv1 : decode (word 0x30#8 d src t 0 m) = .legal (.packv1 d src t m) := by
  rw [decode_word rfl rfl (by simp [Fields.UnusedAreZero])]
  simp

theorem decode_word_packv6 : decode (word 0x31#8 d src t 0 m) = .legal (.packv6 d src t m) := by
  rw [decode_word rfl rfl (by simp [Fields.UnusedAreZero])]
  simp

theorem decode_word_packv7 : decode (word 0x32#8 d src t) = .legal (.packv7 d src t) := by
  rw [decode_word rfl rfl (by simp [Fields.UnusedAreZero])]
  simp

end

/-! ### The statements -/

/-- Settles O46: the time bytes, without the multicast bit, are the ticks' eight bytes. -/
theorem packvOneLayout : Obligations.PackvOneLayout := by
  unfold Obligations.PackvOneLayout
  intro d src t m s
  exact ⟨decode_word_packv1 d src t m, _, rfl, sumBe_timeBytesV1_packed s.r[t] s.v[src] m,
    withMulticast_copies m (layoutV1_getElem_of_ge _ s.v[src])⟩

/-- Settles O47: as for PACKV1, with the eight bytes in order. -/
theorem packvSixLayout : Obligations.PackvSixLayout := by
  unfold Obligations.PackvSixLayout
  intro d src t m s
  exact ⟨decode_word_packv6 d src t m, _, rfl, sumBe_timeBytesV6_packed s.r[t] s.v[src] m,
    withMulticast_copies m (layoutV6_getElem_of_ge _ s.v[src])⟩

/-- Settles O48: the six bytes of the milliseconds modulo 2^48 sum back to them. -/
theorem packvSevenLayout : Obligations.PackvSevenLayout := by
  unfold Obligations.PackvSevenLayout
  intro d src t s
  exact ⟨decode_word_packv7 d src t, _, rfl, sumBe_timeBytesV7_packed s.r[t] s.v[src],
    fun k h6 => layoutV7_getElem_of_ge _ s.v[src] k k.isLt h6⟩

end Sys2Proof.Machine
end

section
/-! PROOFS. The accessors GETTIME, GETNODE and NODEHEX (44_accessors.md R77 to R79): the model's
integers of bytes are R11's sums, and the version nibble selects what an accessor finds. -/

namespace Sys2Proof.Machine

open Sys2Proof.Claims

/-! ### The integer of a list of bytes (R11) -/

theorem sumBe_append (xs ys : List Byte) :
    sumBe (xs ++ ys) = sumBe xs * 256 ^ ys.length + sumBe ys := by
  induction xs with
  | nil => simp [sumBe]
  | cons x xs ih =>
    rw [List.cons_append, sumBe, sumBe, ih, List.length_append, Nat.pow_add]
    ring

theorem sumBe_singleton (b : Byte) : sumBe [b] = b.toNat := by simp [sumBe]

theorem sumBe_lt (bs : List Byte) : sumBe bs < 256 ^ bs.length := by
  induction bs with
  | nil => decide
  | cons b bs ih =>
    calc sumBe (b :: bs) < b.toNat * 256 ^ bs.length + 256 ^ bs.length := Nat.add_lt_add_left ih _
      _ = (b.toNat + 1) * 256 ^ bs.length := (Nat.succ_mul ..).symm
      _ ≤ 256 * 256 ^ bs.length := Nat.mul_le_mul_right _ b.isLt
      _ = 256 ^ (b :: bs).length := Nat.pow_succ'.symm

/-- Induction from the last byte, the one `beNat` adds last. -/
theorem beNat_eq_sumBe (bs : List Byte) : beNat bs = sumBe bs := by
  induction bs using List.reverseRecOn with
  | nil => rfl
  | append_singleton bs b ih =>
    rw [sumBe_append, sumBe_singleton, ← ih, beNat, List.foldl_append]
    rfl

/-- Eight bytes fit a scalar. -/
theorem toNat_ofNat_sumBe {bs : List Byte} (h : bs.length ≤ 8) :
    (BitVec.ofNat 64 (sumBe bs)).toNat = sumBe bs := by
  rw [BitVec.toNat_ofNat]
  exact Nat.mod_eq_of_lt ((sumBe_lt bs).trans_le (Nat.pow_le_pow_right (n := 256) (by decide) h))

theorem ofNat_sumBe_singleton (b : Byte) : BitVec.ofNat 64 (sumBe [b]) = b.setWidth 64 := by
  rw [sumBe_singleton, BitVec.ofNat_toNat]

theorem ofNat_shiftLeft (x k : Nat) : BitVec.ofNat 64 (x <<< k) = BitVec.ofNat 64 x <<< k := by
  apply BitVec.eq_of_toNat_eq
  simp [Nat.shiftLeft_eq]

/-- The bytes before `ys` stand above its bits. -/
theorem ofNat_sumBe_append (xs ys : List Byte) : BitVec.ofNat 64 (sumBe (xs ++ ys)) =
    (BitVec.ofNat 64 (sumBe xs) <<< (8 * ys.length)) ||| BitVec.ofNat 64 (sumBe ys) := by
  have hlt : sumBe ys < 2 ^ (8 * ys.length) := (sumBe_lt ys).trans_eq (Nat.pow_mul 2 8 _).symm
  have hsum : sumBe (xs ++ ys) = sumBe xs <<< (8 * ys.length) ||| sumBe ys := by
    rw [← Nat.shiftLeft_add_eq_or_of_lt hlt, Nat.shiftLeft_eq, Nat.pow_mul, sumBe_append]
  rw [hsum, BitVec.ofNat_or, ofNat_shiftLeft]

/-! ### The bytes an accessor reads -/

theorem be_eq_sumBe_of_bytes {u : Value} {i n : Nat} {bs : List Byte}
    (h : (u.toList.drop i).take n = bs) : be u i n = sumBe bs := by
  rw [be, h, beNat_eq_sumBe]

/-- The node of a version 1 or 6 value (R78). -/
def nodeBytes (u : Value) : List Byte := [u[10], u[11], u[12], u[13], u[14], u[15]]

section
variable (u : Value)

theorem nodeBytes_length : (nodeBytes u).length = 6 := rfl

theorem value_toList : u.toList = [u[0], u[1], u[2], u[3], u[4], u[5], u[6], u[7],
    u[8], u[9], u[10], u[11], u[12], u[13], u[14], u[15]] := by
  obtain ⟨b0, b1, b2, b3, b4, b5, b6, b7, b8, b9, b10, b11, b12, b13, b14, b15, rfl⟩ := value_eta u
  rfl

theorem slice_node : slice u 10 15 = nodeBytes u := by
  rw [slice, value_toList]
  rfl

theorem be_node : be u 10 6 = sumBe (nodeBytes u) := be_eq_sumBe_of_bytes (slice_node u)

theorem be_timeV7 : be u 0 6 = sumBe (timeBytesV7 u) :=
  be_eq_sumBe_of_bytes (by rw [value_toList]; rfl)

theorem be_timeV6 : be u 0 8 = sumBe (timeBytesV6 u) :=
  be_eq_sumBe_of_bytes (by rw [value_toList]; rfl)

theorem be_timeMid : be u 4 2 = sumBe [u[4], u[5]] :=
  be_eq_sumBe_of_bytes (by rw [value_toList]; rfl)

theorem be_timeLow : be u 0 4 = sumBe [u[0], u[1], u[2], u[3]] :=
  be_eq_sumBe_of_bytes (by rw [value_toList]; rfl)

end

/-! ### The ticks of a value (R77) -/

/-- The model's four shifted fields are the time bytes in R73's order, without the version. -/
theorem ticksV1_eq (u : Value) : ticksV1 u =
    BitVec.ofNat 64 (sumBe [u[6] &&& 0x0F#8, u[7], u[4], u[5], u[0], u[1], u[2], u[3]]) := by
  have hcat : [u[6] &&& 0x0F#8, u[7], u[4], u[5], u[0], u[1], u[2], u[3]] =
    [u[6] &&& 0x0F#8] ++ ([u[7]] ++ ([u[4], u[5]] ++ [u[0], u[1], u[2], u[3]])) := rfl
  rw [hcat, ofNat_sumBe_append, ofNat_sumBe_append, ofNat_sumBe_append, ofNat_sumBe_singleton,
    ofNat_sumBe_singleton, ticksV1, be_timeMid, be_timeLow, BitVec.or_assoc, BitVec.or_assoc]
  rfl

/-- Clearing bits 15 to 12 of a scalar clears the high nibble of its byte 1. -/
theorem clear_versionBits (hi : Scalar) (b6 b7 : Byte) :
    (hi <<< 16 ||| (b6.setWidth 64 <<< 8 ||| b7.setWidth 64)) &&& ~~~0x000000000000F000#64 =
      hi <<< 16 ||| ((b6 &&& 0x0F#8).setWidth 64 <<< 8 ||| b7.setWidth 64) := by
  apply BitVec.eq_of_getLsbD_eq
  intro i h
  interval_cases i <;> simp

/-- The last two bytes of eight, under those before them. -/
theorem ofNat_sumBe_lastTwo (bs : List Byte) (b6 b7 : Byte) :
    BitVec.ofNat 64 (sumBe (bs ++ ([b6] ++ [b7]))) =
      BitVec.ofNat 64 (sumBe bs) <<< 16 ||| (b6.setWidth 64 <<< 8 ||| b7.setWidth 64) := by
  rw [ofNat_sumBe_append, ofNat_sumBe_append, ofNat_sumBe_singleton, ofNat_sumBe_singleton]
  rfl

/-- The model's mask on the integer is the clearing of the version in byte 6. -/
theorem ticksV6_eq (u : Value) : ticksV6 u =
    BitVec.ofNat 64 (sumBe [u[0], u[1], u[2], u[3], u[4], u[5], u[6] &&& 0x0F#8, u[7]]) := by
  have hcat : ∀ b6 : Byte, [u[0], u[1], u[2], u[3], u[4], u[5], b6, u[7]] =
    [u[0], u[1], u[2], u[3], u[4], u[5]] ++ ([b6] ++ [u[7]]) := fun _ => rfl
  rw [ticksV6, be_timeV6, timeBytesV6, hcat, hcat, ofNat_sumBe_lastTwo, ofNat_sumBe_lastTwo,
    clear_versionBits]

theorem negative_ticks (g : Scalar) :
    (TimeField.ticks g).negative = decide (g.toNat < epoch) := by
  rw [TimeField.negative, BitVec.ult, epochOffset_toNat, epoch]

/-- The signed reading of ticks less the offset is their integer difference (R77). -/
theorem exactTime_ticks (g : Scalar) :
    exactTime (TimeField.ticks g).value (TimeField.ticks g).negative = (g.toNat : Int) - epoch := by
  have hg := g.isLt
  rw [exactTime, negative_ticks, TimeField.value, BitVec.toNat_sub, epochOffset_toNat, epoch]
  simp only [decide_eq_true_eq]
  split <;> omega

/-! ### What the version nibble selects -/

section
variable {u : Value}

theorem versionOf_eq_iff (n : BitVec 4) : versionOf u = n ↔ u[6].toNat / 16 = n.toNat := by
  rw [← BitVec.toNat_inj, versionOf_toNat]

theorem hasNode_eq_decide :
    hasNode u = decide (u[6].toNat / 16 = 1 ∨ u[6].toNat / 16 = 6) := by
  simp only [hasNode, beq_eq_decide, versionOf_eq_iff, Bool.decide_or]
  rfl

theorem hasNode_of_node (h : u[6].toNat / 16 = 1 ∨ u[6].toNat / 16 = 6) : hasNode u = true :=
  hasNode_eq_decide.trans (decide_eq_true h)

theorem hasNode_of_other (h : u[6].toNat / 16 ≠ 1 ∧ u[6].toNat / 16 ≠ 6) : hasNode u = false :=
  hasNode_eq_decide.trans (decide_eq_false (not_or.2 h))

theorem timeField_of_one (h : u[6].toNat / 16 = 1) : timeField u = .ticks (ticksV1 u) :=
  if_pos ((versionOf_eq_iff 1#4).2 h)

theorem timeField_of_six (h : u[6].toNat / 16 = 6) : timeField u = .ticks (ticksV6 u) := by
  simp [timeField, versionOf_eq_iff, h]

/-- The ticks a version 1 or 6 value gives, by the version's byte order. -/
theorem timeField_of_ticks (h : u[6].toNat / 16 = 1 ∨ u[6].toNat / 16 = 6) :
    ∃ g : Scalar, timeField u = .ticks g ∧ g.toNat =
      if u[6].toNat / 16 = 1 then
        sumBe [u[6] &&& 0x0F#8, u[7], u[4], u[5], u[0], u[1], u[2], u[3]]
      else sumBe [u[0], u[1], u[2], u[3], u[4], u[5], u[6] &&& 0x0F#8, u[7]] := by
  obtain h | h := h
  · exact ⟨_, timeField_of_one h, by rw [ticksV1_eq, if_pos h, toNat_ofNat_sumBe (by simp)]⟩
  · exact ⟨_, timeField_of_six h, by rw [ticksV6_eq, if_neg (by omega), toNat_ofNat_sumBe (by simp)]⟩

theorem timeField_of_seven (h : u[6].toNat / 16 = 7) :
    timeField u = .millis (BitVec.ofNat 64 (sumBe (timeBytesV7 u))) := by
  simp [timeField, versionOf_eq_iff, h, be_timeV7]

theorem timeField_of_other (h : u[6].toNat / 16 ∉ [1, 6, 7]) : timeField u = .absent := by
  simp only [List.mem_cons, List.not_mem_nil, or_false, not_or] at h
  simp [timeField, versionOf_eq_iff, h]

end

/-! ### The command words -/

section
variable (d src : Fin 8)

theorem decode_word_gettime : decode (word 0x40#8 d src) = .legal (.gettime d src) := by
  rw [decode_word rfl rfl (by simp [Fields.UnusedAreZero, regBits])]
  simp

theorem decode_word_getnode : decode (word 0x41#8 d src) = .legal (.getnode d src) := by
  rw [decode_word rfl rfl (by simp [Fields.UnusedAreZero, regBits])]
  simp

theorem decode_word_nodehex : decode (word 0x42#8 0 src) = .legal (.nodehex src) := by
  rw [decode_word rfl rfl (by simp [Fields.UnusedAreZero, regBits])]
  simp

end

/-! ### What the commands do -/

section
variable {s : State} {src : VReg}

theorem exec_gettime {f : TimeField} (h : timeField s.v[src] = f) (d : RReg) :
    exec (.gettime d src) s = .next (done
      { s with r := s.r.set d f.value, tv := f.valid, tn := f.negative, tu := f.unitMillis }) := by
  subst h
  rfl

theorem exec_getnode {b : Bool} (h : hasNode s.v[src] = b) (d : RReg) :
    exec (.getnode d src) s = .next (done { s with
      r := s.r.set d (if b then BitVec.ofNat 64 (sumBe (nodeBytes s.v[src])) else 0#64)
      nv := b }) := by
  subst h
  rw [← be_node]
  rfl

theorem exec_nodehex {b : Bool} (h : hasNode s.v[src] = b) :
    exec (.nodehex src) s =
      succeed ((s.setOut (if b then hexs (nodeBytes s.v[src]) else [])).setNodeFlag b) := by
  subst h
  rw [← slice_node]
  rfl

end

/-! ### The statements -/

/-- Settles O49, by what the version nibble selects: ticks, milliseconds or no time. -/
theorem gettimeExtractsTheTime : Obligations.GettimeExtractsTheTime := by
  unfold Obligations.GettimeExtractsTheTime
  rintro d src s u ver T M rfl rfl hT rfl
  refine ⟨decode_word_gettime d src, fun h => ?_, fun h => ?_, fun h => ?_⟩
  · obtain ⟨g, hfield, hg⟩ := timeField_of_ticks h
    obtain rfl : g.toNat = T := hg.trans hT.symm
    refine ⟨(TimeField.ticks g).value, ?_, ?_⟩
    · rw [exec_gettime hfield, negative_ticks]
      rfl
    · simpa [exactTime, negative_ticks] using exactTime_ticks g
  · exact ⟨_, exec_gettime (timeField_of_seven h) d, toNat_ofNat_sumBe (by simp [timeBytesV7])⟩
  · exact exec_gettime (timeField_of_other h) d

/-- Settles O50: six bytes fit the scalar. -/
theorem getnodeExtractsTheNode : Obligations.GetnodeExtractsTheNode := by
  unfold Obligations.GetnodeExtractsTheNode
  rintro d src s u ver rfl rfl
  refine ⟨decode_word_getnode d src, fun h => ?_, fun h => exec_getnode (hasNode_of_other h) d⟩
  exact ⟨_, exec_getnode (hasNode_of_node h) d, toNat_ofNat_sumBe (by rw [nodeBytes_length]; decide)⟩

/-- Settles O51: the output is the node's digits, or empty. -/
theorem nodehexWritesTheNode : Obligations.NodehexWritesTheNode := by
  unfold Obligations.NodehexWritesTheNode
  rintro src s u ver rfl rfl
  refine ⟨decode_word_nodehex src, fun h => ?_, fun h => ?_⟩
  · exact ⟨_, exec_nodehex (hasNode_of_node h),
      hexFrom_paddedBuffer (bs := nodeBytes s.v[src]) (by rw [nodeBytes_length]; decide),
      zeroFrom_paddedBuffer (by rw [if_pos rfl, hexs_length, nodeBytes_length])⟩
  · exact ⟨_, exec_nodehex (hasNode_of_other h), zeroFrom_paddedBuffer (bs := []) le_rfl⟩

end Sys2Proof.Machine
end

section
/-! PROOFS. The byte order commands TOFOR, FROMFOR, FORIN and ORDER (45_byteorder.md R81 to R85):
each is a fixed permutation of the value's bytes. -/

namespace Sys2Proof.Machine

open Sys2Proof.Claims

/-! ### The permutations (R81, R85) -/

theorem swapFields_getElem (u : Value) (k : Fin 16) : (swapFields u)[k] = u[swapIndex k] := by
  fin_cases k <;> rfl

theorem clusterOrder_getElem (u : Value) (k : Fin 16) :
    (clusterOrder u)[k] = u[orderIndex k] := by
  fin_cases k <;> rfl

/-- The square of the clustering order, which is not the identity (R85). -/
theorem orderIndex_orderIndex : ∀ k : Fin 16, orderIndex (orderIndex k) =
    (#v[2, 3, 0, 1, 6, 7, 4, 5, 8, 9, 10, 11, 12, 13, 14, 15] : Vector (Fin 16) 16)[k] := by
  decide

theorem clusterOrder_clusterOrder_getElem (u : Value) (k : Fin 16) :
    (clusterOrder (clusterOrder u))[k] = u[orderIndex (orderIndex k)] := by
  rw [clusterOrder_getElem, clusterOrder_getElem]

/-! ### The command words -/

section
variable (d src : Fin 8)

theorem decode_word_tofor : decode (word 0x50#8 d src) = .legal (.tofor d src) := by
  rw [decode_word rfl rfl (by simp [Fields.UnusedAreZero, regBits])]
  simp

theorem decode_word_fromfor : decode (word 0x51#8 d src) = .legal (.fromfor d src) := by
  rw [decode_word rfl rfl (by simp [Fields.UnusedAreZero, regBits])]
  simp

theorem decode_word_forin : decode (word 0x52#8 d) = .legal (.forin d) := by
  rw [decode_word rfl rfl (by simp [Fields.UnusedAreZero, regBits])]
  simp

theorem decode_word_order : decode (word 0x53#8 d src) = .legal (.order d src) := by
  rw [decode_word rfl rfl (by simp [Fields.UnusedAreZero, regBits])]
  simp

end

/-! ### What the commands do -/

@[simp] theorem State.setV_setV_same (s : State) (n : VReg) (u u' : Value) :
    (s.setV n u).setV n u' = s.setV n u' := by
  simp [State.setV]

section
variable {s : State}

/-- The input of FORIN is a foreign-order value (R84). -/
theorem exec_forin_of_some {f : Value} (h : normalise s.ibuf s.ilen = some f) (d : VReg) :
    exec (.forin d) s = succeed (s.setV d (swapFields f)) := by
  simp [exec, execForin, State.input, h]

/-- ORDER in place, on a register that a command has just written. -/
theorem exec_order_after_setV (d : VReg) (u : Value) :
    exec (.order d d) (done (s.setV d u)) = .next (done (s.setV d (clusterOrder u))) := by
  have hget : (done (s.setV d u)).getV d = u := State.getV_setV_same s d u
  calc exec (.order d d) (done (s.setV d u))
      = .next (done ((s.setV d u).setV d (clusterOrder u))) := by
        rw [exec, execOrder, hget]
        rfl
    _ = .next (done (s.setV d (clusterOrder u))) := by rw [State.setV_setV_same]

end

/-! ### The statements -/

/-- Settles O53: both commands write the swapped source. -/
theorem toforAndFromforSwapTheFields : Obligations.ToforAndFromforSwapTheFields := by
  unfold Obligations.ToforAndFromforSwapTheFields
  intro d src s
  exact ⟨decode_word_tofor d src, decode_word_fromfor d src, swapFields s.v[src], rfl, rfl,
    swapFields_getElem s.v[src]⟩

/-- Settles O55, by the two outcomes of normalisation. -/
theorem forinImportsForeignOrder : Obligations.ForinImportsForeignOrder := by
  unfold Obligations.ForinImportsForeignOrder
  intro d s
  exact ⟨decode_word_forin d,
    fun f h => ⟨swapFields f, exec_forin_of_some h d, swapFields_getElem f⟩,
    fun h => exec_forin_of_none h d⟩

/-- Settles O56: the second ORDER permutes what the first one wrote. -/
theorem orderReordersTheTimeFields : Obligations.OrderReordersTheTimeFields := by
  unfold Obligations.OrderReordersTheTimeFields
  intro d src s
  refine ⟨decode_word_order d src, clusterOrder s.v[src], rfl, clusterOrder_getElem s.v[src],
    clusterOrder (clusterOrder s.v[src]), exec_order_after_setV d _, fun k => ?_⟩
  simp only [clusterOrder_clusterOrder_getElem, orderIndex_orderIndex]

end Sys2Proof.Machine
end

section
/-! PROOFS. NIL, ISNIL, ISNILIN, VALID and CMP (46_nil_validate.md R87 to R91), and MOVV
(47_housekeeping.md R92): values are compared as wholes, and the statements read them by bytes. -/

namespace Sys2Proof.Machine

open Sys2Proof.Claims

/-! ### Values byte for byte -/

theorem value_eq_iff_bytes (u w : Value) : u = w ↔ ∀ k : Fin 16, u[k] = w[k] :=
  ⟨fun h _ => h ▸ rfl, fun h => Vector.ext fun i hi => h ⟨i, hi⟩⟩

@[simp] theorem nilValue_getElem (k : Fin 16) : nilValue[k] = 0#8 := by
  simp [nilValue]

/-! ### The answer of a predicate -/

/-- The answer to "are these values equal" is 1 or 0 by their bytes (R91). -/
theorem boolScalar_beq_by_bytes (u w : Value) :
    ((∀ k : Fin 16, u[k] = w[k]) → boolScalar (u == w) = 1#64) ∧
    ((∃ k : Fin 16, u[k] ≠ w[k]) → boolScalar (u == w) = 0#64) := by
  constructor
  · intro hall
    rw [beq_iff_eq.2 ((value_eq_iff_bytes u w).2 hall)]
    rfl
  · rintro ⟨k, hk⟩
    rw [beq_eq_false_iff_ne.2 fun h => hk ((value_eq_iff_bytes u w).1 h k)]
    rfl

/-- The answer to "is this the nil value" is 1 or 0 by whether every byte is 0 (R88). -/
theorem boolScalar_beq_nil_by_bytes (u : Value) :
    ((∀ k : Fin 16, u[k] = 0#8) → boolScalar (u == nilValue) = 1#64) ∧
    ((∃ k : Fin 16, u[k] ≠ 0#8) → boolScalar (u == nilValue) = 0#64) := by
  simpa only [nilValue_getElem] using boolScalar_beq_by_bytes u nilValue

/-! ### The command words -/

section
variable (d src t : Fin 8)

theorem decode_word_nil : decode (word 0x60#8 d) = .legal (.nil d) := by
  rw [decode_word rfl rfl (by simp [Fields.UnusedAreZero, regBits])]
  simp

theorem decode_word_isnil : decode (word 0x61#8 d src) = .legal (.isnil d src) := by
  rw [decode_word rfl rfl (by simp [Fields.UnusedAreZero, regBits])]
  simp

theorem decode_word_isnilin : decode (word 0x62#8 d) = .legal (.isnilin d) := by
  rw [decode_word rfl rfl (by simp [Fields.UnusedAreZero, regBits])]
  simp

theorem decode_word_valid : decode (word 0x63#8 d) = .legal (.valid d) := by
  rw [decode_word rfl rfl (by simp [Fields.UnusedAreZero, regBits])]
  simp

theorem decode_word_cmp : decode (word 0x64#8 d src t) = .legal (.cmp d src t) := by
  rw [decode_word rfl rfl (by simp [Fields.UnusedAreZero])]
  simp

theorem decode_word_movv : decode (word 0x70#8 d src) = .legal (.movv d src) := by
  rw [decode_word rfl rfl (by simp [Fields.UnusedAreZero, regBits])]
  simp

end

/-! ### What the commands do -/

section
variable (d src t : Fin 8) (s : State)

theorem exec_nil : exec (.nil d) s = succeed (s.setV d nilValue) := rfl

theorem exec_movv : exec (.movv d src) s = succeed (s.setV d s.v[src]) := rfl

theorem exec_isnil :
    exec (.isnil d src) s = succeed (s.setR d (boolScalar (s.v[src] == nilValue))) := rfl

theorem exec_cmp :
    exec (.cmp d src t) s = succeed (s.setR d (boolScalar (s.v[src] == s.v[t]))) := rfl

end

section
variable {s : State} {u : Value}

theorem exec_isnilin_of_some (h : normalise s.ibuf s.ilen = some u) (d : RReg) :
    exec (.isnilin d) s = succeed (s.setR d (boolScalar (u == nilValue))) := by
  simp [exec, execIsnilin, State.input, h]

theorem exec_valid_of_some (h : normalise s.ibuf s.ilen = some u) (d : RReg) :
    exec (.valid d) s = succeed (s.setR d 1#64) := by
  simp [exec, execValid, State.input, h, boolScalar]

end

/-! ### The statements -/

/-- Settles O58: both commands compare two values, ISNIL its operand with the nil value. -/
theorem isnilAndCmpCompareBytes : Obligations.IsnilAndCmpCompareBytes := by
  unfold Obligations.IsnilAndCmpCompareBytes
  intro d src t s
  obtain ⟨hnil, hnotNil⟩ := boolScalar_beq_nil_by_bytes s.v[src]
  obtain ⟨heq, hne⟩ := boolScalar_beq_by_bytes s.v[src] s.v[t]
  exact ⟨decode_word_isnil d src, decode_word_cmp d src t, _, _,
    exec_isnil d src s, hnil, hnotNil, exec_cmp d src t s, heq, hne⟩

/-- Settles O59, by the two outcomes of normalisation. -/
theorem isnilinAndValidNeverRaise : Obligations.IsnilinAndValidNeverRaise := by
  unfold Obligations.IsnilinAndValidNeverRaise
  intro d s
  refine ⟨decode_word_isnilin d, decode_word_valid d, ?_⟩
  cases hin : normalise s.ibuf s.ilen with
  | none =>
    exact ⟨0#64, 0#64, exec_isnilin_of_none hin d, exec_valid_of_none hin d,
      fun _ => ⟨rfl, rfl⟩, nofun⟩
  | some u =>
    refine ⟨boolScalar (u == nilValue), 1#64, exec_isnilin_of_some hin d,
      exec_valid_of_some hin d, nofun, ?_⟩
    intro w hw
    obtain rfl : u = w := Option.some.inj hw
    exact ⟨rfl, boolScalar_beq_nil_by_bytes u⟩

/-- Settles O57: each command writes one value, and every byte of the nil value is 0. -/
theorem nilAndMovvWriteTheirValue : Obligations.NilAndMovvWriteTheirValue := by
  unfold Obligations.NilAndMovvWriteTheirValue
  intro d src s
  exact ⟨decode_word_nil d, decode_word_movv d src, nilValue, exec_nil d s, nilValue_getElem,
    exec_movv d src s⟩

end Sys2Proof.Machine
end

section
/-! PROOFS. CLRERR (47_housekeeping.md R93): it has one command word, and what that word does. -/

namespace Sys2Proof.Machine

open Sys2Proof.Claims

/-! ### The command word -/

theorem decode_word_clrerr : decode (word 0x71#8) = .legal .clrerr := by
  rw [decode_word rfl rfl (by simp [Fields.UnusedAreZero, regBits])]

/-- The row of opcode 0x71 is CLRERR's, so no legal word with that opcode is another command
(R53, R54). -/
theorem decode_legal_eq_clrerr_of_opcode {w : Word} {i : Instr} (hop : (fieldsOf w).op = 0x71#8)
    (h : decode w = .legal i) : i = .clrerr := by
  obtain ⟨r, hr, hsel, rfl⟩ := decode_legal h
  have hrow : rowOf 0x71#8 = some ⟨0x71#32, 0xFFFFFFFF#32, fun _ => .clrerr⟩ := rfl
  obtain ⟨hmem, hop'⟩ := rowOf_eq_some hrow
  have hsame := (opcode_of_selectedBy hr hsel).symm.trans (hop.trans hop'.symm)
  obtain rfl := row_eq_of_opcode_eq hr hmem hsame
  rfl

/-- Opcode 0x71 with any other bit set is no command (R93). -/
theorem not_legal_of_clrerr_opcode {w : Word} (hop : (fieldsOf w).op = 0x71#8)
    (hne : w ≠ 0x00000071#32) : ¬ ∃ i, decode w = .legal i := by
  rintro ⟨i, h⟩
  obtain rfl := decode_legal_eq_clrerr_of_opcode hop h
  exact hne (decode_eq_clrerr h)

/-! ### What the command does -/

theorem exec_clrerr (s : State) : exec .clrerr s = succeed (s.setSticky false) := rfl

/-! ### The statement -/

/-- Settles O60: CLRERR's opcode has one legal word, and every other word with it completes as an
illegal one. -/
theorem clrerrClearsTheErrorBits : Obligations.ClrerrClearsTheErrorBits := by
  unfold Obligations.ClrerrClearsTheErrorBits
  refine ⟨decode_word_clrerr, exec_clrerr, fun w s hop hne => ?_⟩
  exact completeCommand_of_not_legal (not_legal_of_clrerr_opcode hop hne) s

end Sys2Proof.Machine
end

section
/-! PROOFS. Errors, cause by cause, and what an error leaves alone (60_exceptions.md R94, R96,
R98). -/

namespace Sys2Proof.Machine

open Sys2Proof.Claims

/-! ### Every command word completes -/

/-- Every word completes in every state: with its error, or with success (R55). -/
theorem completeCommand_total (w : Word) (s : State) : ∃ t, completeCommand w s = .next t := by
  rcases completeCommand_error_cases w s with ⟨-, hraise⟩ | ⟨-, -, hclear⟩ | ⟨-, u, hwrite, -⟩
  · exact ⟨_, hraise⟩
  · exact ⟨_, hclear⟩
  · exact ⟨_, hwrite⟩

/-- Where a word has an error, its completion is `raise` of that error, and no other case. -/
theorem completeCommand_of_error {w : Word} {s : State} (he : errorOf w s ≠ .noError) :
    completeCommand w s = raise (errorOf w s) s := by
  rcases completeCommand_error_cases w s with ⟨-, hraise⟩ | ⟨hno, -⟩ | ⟨hno, -⟩
  · exact hraise
  · exact absurd hno he
  · exact absurd hno he

/-! ### The statements -/

/-- Settles O26: the word completes, and a completion writes the error of its cause. -/
theorem eachErrorHasItsCause : Obligations.EachErrorHasItsCause := by
  unfold Obligations.EachErrorHasItsCause
  refine ⟨rfl, fun w s => ?_⟩
  obtain ⟨t, hc⟩ := completeCommand_total w s
  obtain ⟨herr, -⟩ := completeCommand_err hc
  exact ⟨t, hc, herr, herr ▸ errorOf_code_mem w s⟩

/-- Settles O28: the completion is `raise`, which writes ERR, STICKY and BUSY only. -/
theorem anErrorChangesNothingElse : Obligations.AnErrorChangesNothingElse := by
  unfold Obligations.AnErrorChangesNothingElse
  intro w s he
  rw [completeCommand_of_error he, raise_eq]

end Sys2Proof.Machine
end

section
/-! PROOFS. Decoding and encoding are inverse to one another: every command's word decodes to it,
and a legal word is the encoding of its command (30_encoding.md sections 1 to 4 and 6; D16). -/

namespace Sys2Proof

open Sys2Proof.Claims Sys2Proof.Machine

/-! ### Decoding an encoded command -/

theorem decode_word_getvar (d src : Fin 8) :
    decode (word 0x24#8 d src) = .legal (.getvar d src) := by
  rw [decode_word rfl rfl (by simp [Fields.UnusedAreZero, regBits])]
  simp

/-- The encoder's word is the one with the command's operands in their fields (R58). -/
theorem decode_encode_of_word {i : Instr} {op : BitVec 8} {d s t : Fin 8} {imm : BitVec 4}
    {m : Bool}
    (hf : i.fields = ⟨op, regBits d, regBits s, regBits t, imm, BitVec.ofBool m, 0⟩)
    (h : decode (word op d s t imm m) = .legal i) : decode (encode i) = .legal i := by
  rw [encode, hf, ← word_eq_toWord, h]

/-- Every command decodes back from its word, by the word of its opcode. -/
theorem decode_encode (i : Instr) : decode (encode i) = .legal i := by
  cases i with
  | parse d =>
    obtain ⟨hparse, -⟩ := decode_word_codec d
    exact decode_encode_of_word rfl hparse
  | fmt src =>
    obtain ⟨-, hfmt, -⟩ := decode_word_codec src
    exact decode_encode_of_word rfl hfmt
  | hex src =>
    obtain ⟨-, -, hhex, -⟩ := decode_word_codec src
    exact decode_encode_of_word rfl hhex
  | urn src =>
    obtain ⟨-, -, -, hurn, -⟩ := decode_word_codec src
    exact decode_encode_of_word rfl hurn
  | raw src =>
    obtain ⟨-, -, -, -, hraw⟩ := decode_word_codec src
    exact decode_encode_of_word rfl hraw
  | setver d src imm => exact decode_encode_of_word rfl (decode_word_setver d src imm)
  | setvar d src => exact decode_encode_of_word rfl (decode_word_setvar d src)
  | stamp d src imm => exact decode_encode_of_word rfl (decode_word_stamp d src imm)
  | getver d src => exact decode_encode_of_word rfl (decode_word_getver d src)
  | getvar d src => exact decode_encode_of_word rfl (decode_word_getvar d src)
  | packv1 d src t m => exact decode_encode_of_word rfl (decode_word_packv1 d src t m)
  | packv6 d src t m => exact decode_encode_of_word rfl (decode_word_packv6 d src t m)
  | packv7 d src t => exact decode_encode_of_word rfl (decode_word_packv7 d src t)
  | gettime d src => exact decode_encode_of_word rfl (decode_word_gettime d src)
  | getnode d src => exact decode_encode_of_word rfl (decode_word_getnode d src)
  | nodehex src => exact decode_encode_of_word rfl (decode_word_nodehex src)
  | tofor d src => exact decode_encode_of_word rfl (decode_word_tofor d src)
  | fromfor d src => exact decode_encode_of_word rfl (decode_word_fromfor d src)
  | forin d => exact decode_encode_of_word rfl (decode_word_forin d)
  | order d src => exact decode_encode_of_word rfl (decode_word_order d src)
  | nil d => exact decode_encode_of_word rfl (decode_word_nil d)
  | isnil d src => exact decode_encode_of_word rfl (decode_word_isnil d src)
  | isnilin d => exact decode_encode_of_word rfl (decode_word_isnilin d)
  | valid d => exact decode_encode_of_word rfl (decode_word_valid d)
  | cmp d src t => exact decode_encode_of_word rfl (decode_word_cmp d src t)
  | movv d src => exact decode_encode_of_word rfl (decode_word_movv d src)
  | clrerr => exact decode_encode_of_word rfl decode_word_clrerr

/-! ### Encoding a decoded word -/

/-- The fields a row with the uses `u` takes from a word, and 0 in the rest. -/
def Fields.only (f : Fields) (u : Uses) : Fields where
  op       := f.op
  d        := if u.d then f.d else 0
  s        := if u.s then f.s else 0
  t        := if u.t then f.t else 0
  imm      := if u.imm then f.imm else 0
  m        := if u.m then f.m else 0
  reserved := 0

/-- A selected word holds nothing beside the fields its row uses. -/
theorem Fields.only_eq_self {f : Fields} {u : Uses} (hres : f.reserved = 0)
    (hzero : f.UnusedAreZero u) : f.only u = f := by
  obtain ⟨hd, hs, ht, himm, hm⟩ := hzero
  obtain ⟨op, d, s, t, imm, m, reserved⟩ := f
  simp only [Fields.only, Fields.mk.injEq, ite_eq_left_iff, Bool.not_eq_true, true_and]
  exact ⟨fun h => (hd h).symm, fun h => (hs h).symm, fun h => (ht h).symm,
    fun h => (himm h).symm, fun h => (hm h).symm, hres.symm⟩

/-- The command a row builds has the row's opcode, and the word's fields where the row uses them. -/
theorem build_fields (w : Word) : ∀ r ∈ opcodeMap, ∃ u, usesOf (fieldsOf r.op).op = some u ∧
    (r.build w).fields = { (fieldsOf w).only u with op := (fieldsOf r.op).op } := by
  have hd : regBits (fieldD w) = (fieldsOf w).d := regBits_regField w 8
  have hs : regBits (fieldS w) = (fieldsOf w).s := regBits_regField w 11
  have ht : regBits (fieldT w) = (fieldsOf w).t := regBits_regField w 14
  have hm : BitVec.ofBool (fieldM w) = (fieldsOf w).m := ofBool_fieldM w
  have himm : fieldImm w = (fieldsOf w).imm := rfl
  simp only [opcodeMap, codecRows, bitFieldRows, packerRows, accessorRows, byteOrderRows,
    nilValidateRows, housekeepingRows, List.cons_append, List.nil_append, List.forall_mem_cons,
    List.not_mem_nil, false_imp_iff, implies_true, and_true]
  and_intros <;> exact ⟨_, rfl, by simp only [Instr.fields, hd, hs, ht, hm, himm]; rfl⟩

/-- A legal word's command encodes to the word. -/
theorem encode_of_decode {w : Word} {i : Instr} (h : decode w = .legal i) : encode i = w := by
  obtain ⟨r, hr, hsel, rfl⟩ := decode_legal h
  obtain ⟨u, hu, hfields⟩ := build_fields w r hr
  obtain ⟨hop, hres, hzero⟩ := (selectedBy_iff_fields hr hu w).1 hsel
  rw [encode, hfields, Fields.only_eq_self hres hzero, ← hop]
  exact toWord_fieldsOf w

/-! ### The statements -/

/-- Settles O1, command by command. -/
theorem encodedCommandsDecodeBack : Obligations.EncodedCommandsDecodeBack := by
  unfold Obligations.EncodedCommandsDecodeBack
  exact decode_encode

/-- Settles O2: the word holds nothing beside the fields its row uses. -/
theorem legalWordsHaveOneEncoding : Obligations.LegalWordsHaveOneEncoding := by
  unfold Obligations.LegalWordsHaveOneEncoding
  exact fun w i h => encode_of_decode h

/-- Settles O4, by decoding each of the words. -/
theorem writtenOutWordsDecode : Obligations.WrittenOutWordsDecode := by
  unfold Obligations.WrittenOutWordsDecode
  decide

end Sys2Proof
end

section
/-! PROOFS. A step by who moves: the engine's completion, the host at rest, a reset
(10_state.md R13; 20_memory.md R44; 30_encoding.md R55; 70_reset_and_hazards.md R121). -/

namespace Sys2Proof.Machine

open Sys2Proof.Claims

section
variable {s : State}

/-! ### One step -/

/-- A reset edge acts whether or not a command is in flight (R111). -/
theorem step_reset {a : Option Access} {rest : List HostInput} (hp : s.pending = .reset a :: rest) :
    step s = .next (s.resetBlock.setPending rest) := by
  cases hi : s.inflight <;> simp [step, fetch, hi, restStep, busyStep, hp]

theorem step_of_rest (hi : s.inflight = none) : step s = restStep s := by
  simp [step, fetch, hi]

/-- A block at rest changes no state by itself (R13). -/
theorem step_idle (hi : s.inflight = none) (hp : s.pending = []) : step s = .next s := by
  simp [step, fetch, hi, restStep, hp]

/-- Without an input the in-flight command completes (R55). -/
theorem step_completes_without_input {w : Word} (hi : s.inflight = some w) (hp : s.pending = []) :
    step s = completeCommand w s := by
  simp [step, fetch, hi, busyStep, hp]

/-- At rest, but for a reset, the host has nothing next or an access. -/
theorem step_at_rest_cases (hi : s.inflight = none) (hr : ¬ ResetNext s) :
    (s.pending = [] ∧ step s = .next s) ∨
    ∃ a rest, s.pending = .access a :: rest ∧
      step s = .next (performAccess a (s.setPending rest)) := by
  rcases hp : s.pending with _ | ⟨a | a, rest⟩
  · exact .inl ⟨rfl, step_idle hi hp⟩
  · exact .inr ⟨a, rest, rfl, step_access_at_rest hi hp⟩
  · exact absurd ⟨a, rest, hp⟩ hr

theorem statusReadNext_iff {a : Access} {rest : List HostInput}
    (hp : s.pending = .access a :: rest) : StatusReadNext s ↔ a.isStatusRead = true := by
  simp [StatusReadNext, hp, Access.isStatusRead_iff]

/-- The interlock of R44: but for a reset and a `STATUS` read, the in-flight command completes. -/
theorem step_completes {w : Word} (hi : s.inflight = some w) (hr : ¬ ResetNext s)
    (hs : ¬ StatusReadNext s) : step s = completeCommand w s := by
  rcases hp : s.pending with _ | ⟨a | a, rest⟩
  · exact step_completes_without_input hi hp
  · exact step_access_waits hi hp (by simpa [statusReadNext_iff hp] using hs)
  · exact absurd ⟨a, rest, hp⟩ hr

/-- Every step answers a next state: the block never halts (R121). -/
theorem step_total (s : State) : ∃ t, step s = .next t := by
  rcases step_cases s with ⟨a, rest, -, e⟩ | ⟨-, -, e⟩ | ⟨a, rest, -, -, e⟩ |
    ⟨w, a, rest, -, -, -, -, e⟩ | ⟨w, a, rest, -, -, -, -, e⟩ | ⟨w, -, -, e⟩ <;> rw [e]
  · exact ⟨_, rfl⟩
  · exact ⟨_, rfl⟩
  · exact ⟨_, rfl⟩
  · exact ⟨_, rfl⟩
  · exact completeCommand_total w _
  · exact completeCommand_total w s

theorem safeRun (k : Nat) (s : State) : SafeRun k s := by
  induction k generalizing s with
  | zero => exact ⟨s, rfl⟩
  | succ k ih =>
    obtain ⟨t, ht⟩ := step_total s
    obtain ⟨u, hu⟩ := ih t
    exact ⟨u, (run_succ ht k).trans hu⟩

end

/-! ### The statements -/

/-- Settles O5: the step is the completion, whichever way the word decodes. -/
theorem stepRunsTheInflightCommand : Obligations.StepRunsTheInflightCommand := by
  unfold Obligations.StepRunsTheInflightCommand
  intro s w hi hr hs
  rw [step_completes hi hr hs, completeCommand]
  exact ⟨fun i hd => by rw [hd], fun why hd => by rw [hd]; rfl⟩

/-- Settles O16: nothing is in flight and nothing is next. -/
theorem blockAtRestChangesNothing : Obligations.BlockAtRestChangesNothing := by
  unfold Obligations.BlockAtRestChangesNothing
  exact fun s hi hp => step_idle hi hp

/-- Settles O20, by induction on the number of steps. -/
theorem everyRunIsSafe : Obligations.EveryRunIsSafe := by
  unfold Obligations.EveryRunIsSafe
  exact safeRun

end Sys2Proof.Machine
end

section
/-! PROOFS. What a command writes, said once for all of them, and from it what each leaves alone:
the flags (10_state.md R20), the input (R25, R28), the registers and the output (R26, R29), the
window; and the invariant of the state. -/

namespace Sys2Proof.Machine

open Sys2Proof.Claims

/-! ### The effect of a command -/

/-- What one command can write (R53's `d` column, R26, R77 to R79, R93, R96). -/
inductive Effect where
  /-- An error, and nothing else. -/
  | error (e : ErrorCode)
  /-- A value register. -/
  | value (d : VReg) (u : Value)
  /-- A scalar register. -/
  | scalar (d : RReg) (x : Scalar)
  /-- A scalar register, with TV, TN and TU. -/
  | time (d : RReg) (f : TimeField)
  /-- A scalar register, with NV. -/
  | node (d : RReg) (x : Scalar) (b : Bool)
  /-- The output. -/
  | output (bs : List Byte)
  /-- The output, with NV. -/
  | nodeOutput (bs : List Byte) (b : Bool)
  /-- STICKY cleared. -/
  | clearSticky

/-- The state a command with this effect leaves. -/
def Effect.result (s : State) : Effect → State
  | .error e => (s.setSticky true).finish e
  | .value d u => (s.setV d u).finish .noError
  | .scalar d x => (s.setR d x).finish .noError
  | .time d f => ((s.setR d f.value).setTimeFlags f).finish .noError
  | .node d x b => ((s.setR d x).setNodeFlag b).finish .noError
  | .output bs => (s.setOut bs).finish .noError
  | .nodeOutput bs b => ((s.setOut bs).setNodeFlag b).finish .noError
  | .clearSticky => (s.setSticky false).finish .noError

/-- The effect writes only what the command `i` may write, and an output of a command's length. -/
def Effect.AllowedFor (i : Instr) : Effect → Prop
  | .error _ => True
  | .clearSticky => i = .clrerr
  | .value d _ => mayWrite i (.valueWord d 0) = true
  | .scalar d _ => mayWrite i (.scalarWord d true) = true
  | .time d _ => ∃ src, i = .gettime d src
  | .node d _ _ => ∃ src, i = .getnode d src
  | .output bs => mayWrite i .olen = true ∧ bs.length ∈ [0, 12, 16, 32, 36, 45]
  | .nodeOutput bs _ => (∃ src, i = .nodehex src) ∧ bs.length ∈ [0, 12, 16, 32, 36, 45]

/-- The state with other flags. -/
def State.withFlags (s : State) (tv tn tu nv : Bool) : State :=
  { s with tv := tv, tn := tn, tu := tu, nv := nv }

/-- Each command has one effect, which is the same whatever the flags are: no command reads one. -/
theorem exec_effect (i : Instr) (s : State) : ∃ e : Effect, e.AllowedFor i ∧
    exec i s = .next (e.result s) ∧
    ∀ tv tn tu nv, exec i (s.withFlags tv tn tu nv) =
      .next (e.result (s.withFlags tv tn tu nv)) := by
  cases i with
  | parse d =>
    cases h : normalise s.ibuf s.ilen with
    | none =>
      exact ⟨.error .invalidLength, trivial, exec_parse_of_none h d,
        fun tv tn tu nv => exec_parse_of_none (s := s.withFlags tv tn tu nv) h d⟩
    | some u =>
      exact ⟨.value d u, by simp [Effect.AllowedFor, mayWrite], exec_parse_of_some h d,
        fun tv tn tu nv => exec_parse_of_some (s := s.withFlags tv tn tu nv) h d⟩
  | forin d =>
    cases h : normalise s.ibuf s.ilen with
    | none =>
      exact ⟨.error .invalidForeignFormat, trivial, exec_forin_of_none h d,
        fun tv tn tu nv => exec_forin_of_none (s := s.withFlags tv tn tu nv) h d⟩
    | some f =>
      exact ⟨.value d (swapFields f), by simp [Effect.AllowedFor, mayWrite],
        exec_forin_of_some h d,
        fun tv tn tu nv => exec_forin_of_some (s := s.withFlags tv tn tu nv) h d⟩
  | setver d src imm =>
    by_cases h : imm.toNat < 1 ∨ 8 < imm.toNat
    · exact ⟨.error .unsupportedVersion, trivial, if_pos h, fun _ _ _ _ => if_pos h⟩
    · exact ⟨.value d (withVersion imm (s.getV src)), by simp [Effect.AllowedFor, mayWrite],
        if_neg h, fun _ _ _ _ => if_neg h⟩
  | stamp d src imm =>
    by_cases h : imm.toNat ∈ [1, 3, 4, 5, 6, 7, 8]
    · exact ⟨.value d (withRfcVariant (withVersion imm (s.getV src))),
        by simp [Effect.AllowedFor, mayWrite], if_pos h, fun _ _ _ _ => if_pos h⟩
    · exact ⟨.error .unsupportedVersion, trivial, if_neg h, fun _ _ _ _ => if_neg h⟩
  | setvar d | packv1 d | packv6 d | packv7 d | tofor d | fromfor d | order d | nil d | movv d =>
    exact ⟨.value d _, by simp [Effect.AllowedFor, mayWrite], rfl, fun _ _ _ _ => rfl⟩
  | getver d | getvar d | isnil d | isnilin d | valid d | cmp d =>
    exact ⟨.scalar d _, by simp [Effect.AllowedFor, mayWrite], rfl, fun _ _ _ _ => rfl⟩
  | gettime d src => exact ⟨.time d _, ⟨src, rfl⟩, rfl, fun _ _ _ _ => rfl⟩
  | getnode d src => exact ⟨.node d _ _, ⟨src, rfl⟩, rfl, fun _ _ _ _ => rfl⟩
  | fmt src =>
    exact ⟨.output (canon s.v[src]), ⟨rfl, by simp [canon_length]⟩, rfl, fun _ _ _ _ => rfl⟩
  | hex src =>
    exact ⟨.output (hexs s.v[src].toList), ⟨rfl, by simp [hexs_length]⟩, exec_hex src s,
      fun tv tn tu nv => exec_hex src (s.withFlags tv tn tu nv)⟩
  | urn src =>
    exact ⟨.output (urnLead ++ canon s.v[src]), ⟨rfl, by simp [canon_length, urnLead]⟩, rfl,
      fun _ _ _ _ => rfl⟩
  | raw src => exact ⟨.output s.v[src].toList, ⟨rfl, by simp⟩, rfl, fun _ _ _ _ => rfl⟩
  | nodehex src =>
    refine ⟨.nodeOutput (if hasNode s.v[src] then hexs (nodeBytes s.v[src]) else [])
      (hasNode s.v[src]), ⟨⟨src, rfl⟩, ?_⟩, exec_nodehex rfl,
      fun tv tn tu nv => exec_nodehex (s := s.withFlags tv tn tu nv) rfl⟩
    split
    · simp [hexs_length, nodeBytes_length]
    · simp
  | clrerr => exact ⟨.clearSticky, rfl, rfl, fun _ _ _ _ => rfl⟩

section
variable {i : Instr} {s t : State}

theorem exec_result (h : exec i s = .next t) : ∃ e : Effect, e.AllowedFor i ∧ t = e.result s := by
  obtain ⟨e, he, hx, -⟩ := exec_effect i s
  exact ⟨e, he, Host.Outcome.next.inj (h.symm.trans hx)⟩

/-! ### What an effect leaves alone -/

variable {e : Effect}

theorem Effect.result_timeFlags (he : e.AllowedFor i) (hi : ∀ d src, i ≠ .gettime d src)
    (s : State) :
    (e.result s).tv = s.tv ∧ (e.result s).tn = s.tn ∧ (e.result s).tu = s.tu := by
  cases e with
  | time d f =>
    obtain ⟨src, rfl⟩ := he
    exact absurd rfl (hi d src)
  | _ => exact ⟨rfl, rfl, rfl⟩

theorem Effect.result_nodeFlag (he : e.AllowedFor i) (hn : ∀ d src, i ≠ .getnode d src)
    (hx : ∀ src, i ≠ .nodehex src) (s : State) : (e.result s).nv = s.nv := by
  cases e with
  | node d x b =>
    obtain ⟨src, rfl⟩ := he
    exact absurd rfl (hn d src)
  | nodeOutput bs b =>
    obtain ⟨⟨src, rfl⟩, -⟩ := he
    exact absurd rfl (hx src)
  | _ => rfl

/-- An effect carries the flags over, or overwrites them with values of its own. -/
theorem Effect.result_withFlags (e : Effect) (s : State) (tv tn tu nv : Bool) :
    (e.result (s.withFlags tv tn tu nv)).withFlags (e.result s).tv (e.result s).tn (e.result s).tu
      (e.result s).nv = e.result s := by
  cases e <;> rfl

theorem Effect.result_v (he : e.AllowedFor i) {n : Fin 8}
    (hn : mayWrite i (.valueWord n 0) = false) (s : State) : (e.result s).v[n] = s.v[n] := by
  cases e with
  | value d u =>
    have hne : d ≠ n := fun h => by simp [Effect.AllowedFor, h, hn] at he
    exact State.getV_setV_ne s hne u
  | _ => rfl

theorem Effect.result_r (he : e.AllowedFor i) {n : Fin 8}
    (hn : mayWrite i (.scalarWord n true) = false) (s : State) : (e.result s).r[n] = s.r[n] := by
  cases e with
  | scalar d x =>
    have hne : d ≠ n := fun h => by simp [Effect.AllowedFor, h, hn] at he
    exact State.getR_setR_ne s hne x
  | time d f =>
    obtain ⟨src, rfl⟩ := he
    have hne : d ≠ n := fun h => by simp [mayWrite, h] at hn
    exact State.getR_setR_ne s hne f.value
  | node d x b =>
    obtain ⟨src, rfl⟩ := he
    have hne : d ≠ n := fun h => by simp [mayWrite, h] at hn
    exact State.getR_setR_ne s hne x
  | _ => rfl

theorem Effect.result_output (he : e.AllowedFor i) (ho : mayWrite i .olen = false) (s : State) :
    (e.result s).obuf = s.obuf ∧ (e.result s).olen = s.olen := by
  cases e with
  | output bs => simp [Effect.AllowedFor, ho] at he
  | nodeOutput bs b =>
    obtain ⟨⟨src, rfl⟩, -⟩ := he
    simp [mayWrite] at ho
  | _ => exact ⟨rfl, rfl⟩

/-- A completion leaves the input and the host's fields (R25, R28). -/
theorem completeCommand_frame {w : Word} (h : completeCommand w s = .next t) :
    t.ibuf = s.ibuf ∧ t.ilen = s.ilen ∧ t.pending = s.pending ∧ t.replies = s.replies ∧
    t.busyReads = s.busyReads ∧ t.inflight = none := by
  rcases completeCommand_error_cases w s with ⟨-, hc⟩ | ⟨-, -, hc⟩ | ⟨-, u, hc, hu⟩ <;> rw [hc] at h
  · simp [(raise_next_iff s t _).1 h]
  · simp [(succeed_next_iff _ t).1 h]
  · simp [(succeed_next_iff u t).1 h, hu.ibuf, hu.ilen, hu.pending, hu.replies, hu.busyReads]

/-! ### What a command may write, read through the window -/

theorem mayWrite_status (i : Instr) : mayWrite i .status = true := by cases i <;> rfl

theorem mayWrite_valueWord (i : Instr) (n : Fin 8) (k : Fin 4) :
    mayWrite i (.valueWord n k) = mayWrite i (.valueWord n 0) := by cases i <;> rfl

theorem mayWrite_scalarWord (i : Instr) (n : Fin 8) (high : Bool) :
    mayWrite i (.scalarWord n high) = mayWrite i (.scalarWord n true) := by cases i <;> rfl

theorem mayWrite_obufWord (i : Instr) (k : Fin 16) :
    mayWrite i (.obufWord k) = mayWrite i .olen := by cases i <;> rfl

/-- A region the command may not write reads as before. -/
theorem readRegion_of_exec (h : exec i s = .next t) {x : Region} (hx : mayWrite i x = false) :
    readRegion t x = readRegion s x := by
  obtain ⟨e, he, rfl⟩ := exec_result h
  cases x with
  | status => simp [mayWrite_status] at hx
  | valueWord n k =>
    rw [mayWrite_valueWord] at hx
    simp only [readRegion, State.getV_eq, Effect.result_v he hx]
  | scalarWord n high =>
    rw [mayWrite_scalarWord] at hx
    simp only [readRegion, State.getR_eq, Effect.result_r he hx]
  | olen =>
    obtain ⟨-, holen⟩ := Effect.result_output he hx s
    simp only [readRegion, holen]
  | obufWord k =>
    rw [mayWrite_obufWord] at hx
    obtain ⟨hobuf, -⟩ := Effect.result_output he hx s
    simp only [readRegion, hobuf]
  | ilen | ibufWord => cases e <;> rfl
  | cmd | id | reserved => rfl

/-! ### The invariant -/

theorem timeField_flags_agree (f : TimeField) :
    (f.valid = false → f.negative = false ∧ f.unitMillis = false) ∧
    (f.unitMillis = true → f.negative = false) := by
  cases f <;> simp [TimeField.valid, TimeField.negative, TimeField.unitMillis]

theorem Effect.result_timeFlagsAgree (e : Effect) (h : s.TimeFlagsAgree) :
    (e.result s).TimeFlagsAgree := by
  cases e with
  | time d f => exact timeField_flags_agree f
  | _ => exact h

/-- A command's output fills OBUF up to its length, and OLEN holds that length (R26, R29). -/
theorem setOut_outPadded (s : State) {bs : List Byte}
    (h : bs.length ∈ [0, 12, 16, 32, 36, 45]) : (s.setOut bs).OutPadded := by
  have hlen : (BitVec.ofNat 7 bs.length).toNat = bs.length := by
    rw [BitVec.toNat_ofNat]
    simp only [List.mem_cons, List.not_mem_nil, or_false] at h
    omega
  simp only [State.OutPadded, State.setOut_olen, State.setOut_obuf, hlen]
  exact ⟨h, fun k hk => paddedBuffer_zero_from bs k.val k.isLt hk⟩

theorem Effect.result_outPadded (he : e.AllowedFor i) (h : s.OutPadded) :
    (e.result s).OutPadded := by
  cases e with
  | output bs | nodeOutput bs b =>
    obtain ⟨-, hlen⟩ := he
    exact setOut_outPadded s hlen
  | _ => exact h

/-- A completion keeps the output padded and the time flags in agreement. -/
theorem completeCommand_keeps_output_and_flags {w : Word} (h : completeCommand w s = .next t)
    (ho : s.OutPadded) (hf : s.TimeFlagsAgree) : t.OutPadded ∧ t.TimeFlagsAgree := by
  rcases completeCommand_cases w s with ⟨i, -, hc⟩ | ⟨why, -, hc⟩ <;> rw [hc] at h
  · obtain ⟨e, he, rfl⟩ := exec_result h
    exact ⟨e.result_outPadded he ho, e.result_timeFlagsAgree hf⟩
  · obtain rfl := (raise_next_iff s t _).1 h
    exact ⟨ho, hf⟩

/-- A completion leaves a legal error code, and an error code with STICKY (R22, R23). -/
theorem completeCommand_keeps_inv {w : Word} (h : completeCommand w s = .next t) (hs : s.Inv) :
    t.Inv := by
  obtain ⟨-, -, ho, hf⟩ := hs
  obtain ⟨ho', hf'⟩ := completeCommand_keeps_output_and_flags h ho hf
  obtain ⟨herr, -⟩ := completeCommand_err h
  refine ⟨?_, fun hne => ?_, ho', hf'⟩
  · rw [State.ErrLegal, herr]
    exact errorOf_code_mem w s
  · rcases completeCommand_sticky h with ⟨-, hsticky⟩ | ⟨hno, -⟩
    · exact hsticky
    · exact absurd hno hne

theorem performAccess_keeps_inv (a : Access) (hs : s.Inv) : (performAccess a s).Inv := by
  obtain ⟨hsticky, herr, htv, htn, htu, -, holen, hobuf, -⟩ := performAccess_frame s a
  exact (State.Inv_congr herr hsticky holen hobuf htv htn htu).2 hs

/-- No host access changes a flag (R20). -/
theorem step_at_rest_flags (hi : s.inflight = none) (hr : ¬ ResetNext s) (h : step s = .next t) :
    t.tv = s.tv ∧ t.tn = s.tn ∧ t.tu = s.tu ∧ t.nv = s.nv := by
  rcases step_at_rest_cases hi hr with ⟨-, e⟩ | ⟨a, rest, -, e⟩ <;> rw [e] at h <;> cases h
  · exact ⟨rfl, rfl, rfl, rfl⟩
  · obtain ⟨-, -, htv, htn, htu, hnv, -⟩ := performAccess_frame (s.setPending rest) a
    exact ⟨htv, htn, htu, hnv⟩

theorem inv_reset : State.reset.Inv := by decide

theorem step_keeps_inv (h : step s = .next t) (hs : s.Inv) : t.Inv := by
  rcases step_cases s with ⟨a, rest, -, e⟩ | ⟨-, -, e⟩ | ⟨a, rest, -, -, e⟩ |
    ⟨w, a, rest, -, -, -, -, e⟩ | ⟨w, a, rest, -, -, -, -, e⟩ | ⟨w, -, -, e⟩ <;> rw [e] at h
  · cases h
    exact inv_reset
  · cases h
    exact hs
  · cases h
    exact performAccess_keeps_inv (s := s.setPending rest) a hs
  · cases h
    exact performAccess_keeps_inv (s := s.setPending rest) a hs
  · exact completeCommand_keeps_inv (s := s.countBusyRead) h hs
  · exact completeCommand_keeps_inv h hs

end

/-! ### The statements -/

/-- Settles O24, by the cases of a step. -/
theorem everyStepKeepsTheInvariant : Obligations.EveryStepKeepsTheInvariant := by
  unfold Obligations.EveryStepKeepsTheInvariant
  exact fun s t hs h => step_keeps_inv h hs

/-- Settles O23, by evaluating the invariant at reset. -/
theorem invariantAtReset : Obligations.InvariantAtReset := by
  unfold Obligations.InvariantAtReset
  exact inv_reset

/-- Settles O29: an effect writes a flag only where its command does, and is the same whatever the
flags are. -/
theorem flagsAreWrittenByTheirCommandsOnly : Obligations.FlagsAreWrittenByTheirCommandsOnly := by
  unfold Obligations.FlagsAreWrittenByTheirCommandsOnly
  refine ⟨fun i s t h hi => ?_, fun i s t h hn hx => ?_, fun s t hi hr h => ?_,
    fun i s t tv tn tu nv h => ?_⟩
  · obtain ⟨e, he, rfl⟩ := exec_result h
    exact e.result_timeFlags he hi s
  · obtain ⟨e, he, rfl⟩ := exec_result h
    exact e.result_nodeFlag he hn hx s
  · exact step_at_rest_flags hi hr h
  · obtain ⟨e, -, hx, hx'⟩ := exec_effect i s
    obtain rfl := Host.Outcome.next.inj (h.symm.trans hx)
    exact ⟨_, hx' tv tn tu nv, e.result_withFlags s tv tn tu nv⟩

/-- Settles O30, by the cases of a completion. -/
theorem commandsNeverWriteTheInput : Obligations.CommandsNeverWriteTheInput := by
  unfold Obligations.CommandsNeverWriteTheInput
  exact fun w s t h => completeCommand_frame h

/-- Settles O31: the offset's region is one the command may not write. -/
theorem commandsWriteOnlyTheirDestination : Obligations.CommandsWriteOnlyTheirDestination := by
  unfold Obligations.CommandsWriteOnlyTheirDestination
  exact fun i s t a h ha => readRegion_of_exec h ha

/-- Settles O32, by the command's effect. -/
theorem registerFrame : Obligations.RegisterFrame := by
  unfold Obligations.RegisterFrame
  intro i s t h
  obtain ⟨e, he, rfl⟩ := exec_result h
  exact ⟨fun n hn => e.result_v he hn s, fun n hn => e.result_r he hn s,
    fun ho => e.result_output he ho s⟩

end Sys2Proof.Machine
end

section
/-! PROOFS. The interlock, reset, and runs: what a step with an access next does while a command is
in flight (20_memory.md R44; R120), reset from any state (70_reset_and_hazards.md R111, R113), and
runs to completion and against the atomic machine (R115, R119; 30_encoding.md R55). -/

namespace Sys2Proof.Machine

open Sys2Proof.Claims

section
variable {s t : State}

/-! ### The interlock -/

theorem performAccess_statusRead {a : Access} (ha : a.isStatusRead = true) (s : State) :
    performAccess a s = s.reply (.data (statusWord s)) := by
  obtain ⟨hwe, hsize, haddr⟩ := (Access.isStatusRead_iff a).1 ha
  have hl : a.legal = true := (Access.legal_iff a).2 ⟨hsize, by simp [haddr]⟩
  simp [performAccess, hl, hwe, haddr, readWindow_status]

/-- A `STATUS` read that the free choice answers first sees the state before the command (R120). -/
theorem step_statusRead_sees_busy {w : Word} {a : Access} {rest : List HostInput}
    (hi : s.inflight = some w) (hp : s.pending = .access a :: rest) (ha : a.isStatusRead = true)
    (hc : Config.statusReadSeesBusy s.busyReads = true) :
    step s = .next (((s.setPending rest).reply (.data (statusWord s))).countBusyRead) := by
  simp only [step, fetch, hi, busyStep, hp, ha, hc, if_true, performAccess_statusRead ha]
  rfl

/-- A `STATUS` read that loses the free choice waits for the completion (R120). -/
theorem step_statusRead_waits {w : Word} {a : Access} {rest : List HostInput}
    (hi : s.inflight = some w) (hp : s.pending = .access a :: rest) (ha : a.isStatusRead = true)
    (hc : Config.statusReadSeesBusy s.busyReads = false) :
    step s = completeCommand w s.countBusyRead := by
  simp [step, fetch, hi, busyStep, hp, ha, hc]

/-- A waiting access is still next after the completion, and not answered. -/
theorem completeCommand_host {w : Word} (h : completeCommand w s = .next t) :
    t.pending = s.pending ∧ t.replies = s.replies ∧ t.inflight = none := by
  obtain ⟨-, -, hp, hr, -, hi⟩ := completeCommand_frame h
  exact ⟨hp, hr, hi⟩

theorem statusWord_busy {w : Word} (hi : s.inflight = some w) :
    (statusWord s).getLsbD 0 = true := by
  rw [statusWord_bit_zero, State.busy, hi, Option.isSome_some]

theorem statusWord_ne_of_busy (hs : s.inflight.isSome = true) (ht : t.inflight = none) :
    statusWord s ≠ statusWord t := by
  intro h
  have hbusy : s.busy = t.busy := by rw [← statusWord_bit_zero, h, statusWord_bit_zero]
  simp [State.busy, hs, ht] at hbusy

/-! ### Reset -/

theorem lanesOf_zero {n : Nat} {bs : Vector Byte n} (hz : ∀ (i : Nat) (hi : i < n), bs[i] = 0#8)
    (k : Nat) (h : 4 * k + 3 < n) : lanesOf bs k h = 0#32 := by
  simp [lanesOf, hz]

/-- After a reset the window reads 0 but for `ID` (R111). -/
theorem readRegion_resetBlock (s : State) (p : List HostInput) (x : Region) :
    readRegion (s.resetBlock.setPending p) x = if x = .id then Config.idWord else 0#32 := by
  cases x with
  | scalarWord n high => cases high <;> simp [readRegion, State.getR, State.reset, scalarHalf]
  | valueWord n k =>
    exact lanesOf_zero (fun i hi => by simp [State.getV, State.reset, nilValue]) k.val _
  | ibufWord k => exact lanesOf_zero (fun i hi => by simp [State.reset, zeroBuffer]) k.val _
  | obufWord k => exact lanesOf_zero (fun i hi => by simp [State.reset, zeroBuffer]) k.val _
  | status => exact (by decide : statusWord State.reset = 0#32)
  | cmd | ilen | olen | id | reserved => rfl

theorem regionOf_eq_id {a : BitVec 9} (ha : a.toNat % 4 = 0) :
    regionOf a = .id ↔ a = 0x010#9 := by
  constructor
  · intro h
    exact regionOf_injective ha rfl (h.trans rfl) (by simp [h])
  · rintro rfl
    rfl

theorem normalise_reset : normalise State.reset.ibuf State.reset.ilen = none := by decide

/-! ### Runs to completion -/

theorem completeCommand_ends (w : Word) (s : State) :
    ∃ t, completeCommand w s = .next t ∧ t.inflight = none := by
  obtain ⟨t, ht⟩ := completeCommand_total w s
  obtain ⟨-, hnone⟩ := completeCommand_err ht
  exact ⟨t, ht, hnone⟩

/-- A step with a command in flight ends it, or answers one input while it stays in flight. -/
theorem step_busy_progress {w : Word} (hi : s.inflight = some w) :
    ∃ t, step s = .next t ∧ (t.inflight = none ∨
      t.inflight = some w ∧ t.pending.length + 1 = s.pending.length) := by
  rcases step_cases s with ⟨a, rest, -, e⟩ | ⟨hrest, -⟩ | ⟨a, rest, hrest, -⟩ |
    ⟨w', a, rest, -, hp, ha, hc, -⟩ | ⟨w', a, rest, -, -, -, -, e⟩ | ⟨w', -, -, e⟩
  · exact ⟨_, e, .inl rfl⟩
  · simp [hi] at hrest
  · simp [hi] at hrest
  · exact ⟨_, step_statusRead_sees_busy hi hp ha hc, .inr ⟨hi, by simp [hp]⟩⟩
  · obtain ⟨t, ht, hnone⟩ := completeCommand_ends w' s.countBusyRead
    exact ⟨t, e.trans ht, .inl hnone⟩
  · obtain ⟨t, ht, hnone⟩ := completeCommand_ends w' s
    exact ⟨t, e.trans ht, .inl hnone⟩

/-- BUSY falls within one step more than there are inputs: induction on their number. -/
theorem run_until_done (s : State) :
    ∃ k t, k ≤ s.pending.length + 1 ∧ Host.Core.run core k s = .next t ∧ t.inflight = none := by
  induction hn : s.pending.length using Nat.strong_induction_on generalizing s with
  | _ n ih =>
    cases hi : s.inflight with
    | none => exact ⟨0, s, by omega, run_zero s, hi⟩
    | some w =>
      obtain ⟨t, ht, hnone | ⟨-, hlen⟩⟩ := step_busy_progress hi
      · exact ⟨1, t, by omega, run_succ ht 0, hnone⟩
      · obtain ⟨k, u, hk, hrun, hu⟩ := ih t.pending.length (by omega) t rfl
        exact ⟨k + 1, u, by omega, (run_succ ht k).trans hrun, hu⟩

/-! ### Stepwise and atomic runs -/

/-- At rest a step takes the host's next input. -/
theorem step_takes_input {x : HostInput} {rest : List HostInput} (hi : s.inflight = none)
    (hp : s.pending = x :: rest) : ∃ t, step s = .next t ∧ t.pending = rest := by
  cases x with
  | access a =>
    obtain ⟨-, -, -, -, -, -, -, -, hpend, -⟩ := performAccess_frame (s.setPending rest) a
    exact ⟨_, step_access_at_rest hi hp, hpend⟩
  | reset a => exact ⟨_, step_reset hp, rfl⟩

/-- An input that issues no command is one step of both machines. -/
theorem atomicStep_of_no_command (hi : s.inflight = none) (h : step s = .next t)
    (ht : t.inflight = none) : atomicStep s = .next t := by
  rw [step_of_rest hi] at h
  simp [atomicStep, h, ht]

/-- The atomic machine completes the command its input has issued. -/
theorem atomicStep_of_command {w : Word} (hi : s.inflight = none) (h : step s = .next t)
    (ht : t.inflight = some w) : atomicStep s = completeCommand w t := by
  rw [step_of_rest hi] at h
  simp [atomicStep, h, ht]

theorem atomicRun_succ (h : atomicStep s = .next t) (n : Nat) :
    atomicRun (n + 1) s = atomicRun n t := by
  simp [atomicRun, h]

theorem not_statusReadNext (h : ∀ x ∈ s.pending, x.seesNoBusy = true) : ¬ StatusReadNext s := by
  rintro ⟨a, hp, hwe, hsize, haddr⟩
  have hread : a.isStatusRead = true := (Access.isStatusRead_iff a).2 ⟨hwe, hsize, haddr⟩
  simpa [HostInput.seesNoBusy, hread] using h _ (List.mem_of_mem_head? hp)

/-- A reset forgets whether the command before it has completed. -/
theorem step_reset_after_completion {w : Word} (h : completeCommand w s = .next t)
    (hr : ResetNext s) : step s = step t := by
  obtain ⟨a, rest, hp⟩ := hr
  obtain ⟨-, -, hpend, hrep, hreads, -⟩ := completeCommand_frame h
  rw [step_reset hp, step_reset (hpend.trans hp)]
  simp [State.resetBlock, State.setPending, hrep, hreads]

/-- With a command in flight and no `STATUS` read next, a run goes on as from its completion, in
one step more, or in as many where a reset comes first. -/
theorem run_through_completion {w : Word} {k : Nat} (hi : s.inflight = some w)
    (hs : ¬ StatusReadNext s) (h : completeCommand w s = .next t) (hk : s.pending.length ≤ k) :
    ∃ j, k ≤ j ∧ j ≤ k + 1 ∧ Host.Core.run core j s = Host.Core.run core k t := by
  by_cases hr : ResetNext s
  · obtain ⟨u, hu⟩ := step_total s
    obtain ⟨a, rest, hp⟩ := hr
    obtain ⟨k, rfl⟩ : ∃ n, k = n + 1 := ⟨k - 1, by rw [hp, List.length_cons] at hk; omega⟩
    have hu' : step t = .next u := (step_reset_after_completion h ⟨a, rest, hp⟩).symm.trans hu
    exact ⟨k + 1, le_rfl, by omega, (run_succ hu k).trans (run_succ hu' k).symm⟩
  · exact ⟨k + 1, by omega, le_rfl, run_succ ((step_completes hi hr hs).trans h) k⟩

/-- Induction on the inputs: each is one step, and a command it issues one more at most. -/
theorem run_eq_atomicRun (p : List HostInput) (s : State) (hp : s.pending = p)
    (hi : s.inflight = none) (hsee : ∀ x ∈ p, x.seesNoBusy = true) :
    ∃ k, p.length ≤ k ∧ k ≤ 2 * p.length ∧
      Host.Core.run core k s = atomicRun p.length s ∧
      ∃ t, atomicRun p.length s = .next t ∧ t.pending = [] ∧ t.inflight = none := by
  induction p generalizing s with
  | nil => exact ⟨0, le_rfl, le_rfl, rfl, s, rfl, hp, hi⟩
  | cons x rest ih =>
    have hsee' : ∀ x ∈ rest, x.seesNoBusy = true := fun y hy => hsee y (List.mem_cons_of_mem x hy)
    obtain ⟨t, ht, hpt⟩ := step_takes_input hi hp
    rw [List.length_cons]
    cases hit : t.inflight with
    | none =>
      obtain ⟨k, hlo, hhi, hrun, hend⟩ := ih t hpt hit hsee'
      rw [atomicRun_succ (atomicStep_of_no_command hi ht hit)]
      exact ⟨k + 1, by omega, by omega, (run_succ ht k).trans hrun, hend⟩
    | some w =>
      obtain ⟨u, hu⟩ := completeCommand_total w t
      obtain ⟨hpu, -, hiu⟩ := completeCommand_host hu
      obtain ⟨k, hlo, hhi, hrun, hend⟩ := ih u (hpu.trans hpt) hiu hsee'
      obtain ⟨j, hkj, hjk, hj⟩ :=
        run_through_completion hit (not_statusReadNext (hpt ▸ hsee')) hu (hpt ▸ hlo)
      rw [atomicRun_succ ((atomicStep_of_command hi ht hit).trans hu)]
      exact ⟨j + 1, by omega, by omega, (run_succ ht j).trans (hj.trans hrun), hend⟩

end

/-! ### The statements -/

/-- Settles O7: the completion keeps the host's fields, and a `STATUS` read goes by the free
choice. -/
theorem interlockHoldsEveryAccessButStatusReads :
    Obligations.InterlockHoldsEveryAccessButStatusReads := by
  unfold Obligations.InterlockHoldsEveryAccessButStatusReads
  intro s w a rest hi hp
  rw [statusReadNext_iff hp]
  refine ⟨fun ha => ?_, fun ha => ?_⟩
  · have hstep := step_access_waits hi hp (Bool.eq_false_iff.2 ha)
    exact ⟨hstep, fun t ht => completeCommand_host (hstep.symm.trans ht)⟩
  · split
    next hc =>
      exact ⟨statusWord s, step_statusRead_sees_busy hi hp ha hc, rfl, statusWord_busy hi⟩
    next hc =>
      have hstep := step_statusRead_waits hi hp ha (Bool.eq_false_iff.2 hc)
      exact ⟨hstep, fun t ht => completeCommand_host (s := s.countBusyRead) (hstep.symm.trans ht)⟩

/-- Settles O18: the step is the reset of the block, and its window is read region by region. -/
theorem resetFromAnyState : Obligations.ResetFromAnyState := by
  unfold Obligations.ResetFromAnyState
  intro s a rest hp
  refine ⟨_, step_reset hp, fun n k => by simp [State.reset, nilValue],
    fun n => by simp [State.reset], readRegion_resetBlock s rest .status,
    rfl, rfl, rfl, rfl, rfl, rfl, rfl, rfl,
    fun k => by simp [State.reset, zeroBuffer], rfl, fun b hb => ?_, rfl, rfl, rfl, rfl⟩
  rw [readWindow, readRegion_resetBlock]
  simp only [regionOf_eq_id hb, Config.idWord]

/-- Settles O19: FMT writes the nil value's string, the empty input does not normalise, and an
access at rest is answered once. -/
theorem commandsRunStraightAfterReset : Obligations.CommandsRunStraightAfterReset := by
  unfold Obligations.CommandsRunStraightAfterReset
  refine ⟨?_, exec_parse_of_none normalise_reset 0, fun a => ?_⟩
  · obtain ⟨-, b, hexec, hcanon, -⟩ := fmtWritesTheCanonicalString 0 State.reset
    exact ⟨_, hexec, hcanon, rfl, rfl⟩
  · obtain ⟨-, -, -, -, -, -, -, -, hp, ⟨x, hx⟩, -⟩ := performAccess_frame State.reset a
    exact ⟨_, step_access_at_rest rfl rfl, hp, congrArg List.length hx⟩

/-- Settles O21: the run ends with no command in flight, and BUSY is bit 0 of `STATUS`. -/
theorem everyCommandCompletes : Obligations.EveryCommandCompletes := by
  unfold Obligations.EveryCommandCompletes
  intro s
  obtain ⟨k, t, hk, hrun, hnone⟩ := run_until_done s
  exact ⟨k, t, hk, hrun, hnone, fun hbusy => statusWord_ne_of_busy hbusy hnone⟩

/-- Settles O22, by induction on the inputs. -/
theorem stepwiseRunEqualsAtomicRun : Obligations.StepwiseRunEqualsAtomicRun := by
  unfold Obligations.StepwiseRunEqualsAtomicRun
  intro s hi hsee
  obtain ⟨k, -, hk, hrun, hend⟩ := run_eq_atomicRun s.pending s rfl hi hsee
  exact ⟨k, hk, hrun, hend⟩

end Sys2Proof.Machine
end

section
/-! PROOFS. The register map through the host port: what each legal read answers and each legal
write does, and that a write reads back and disturbs no other offset (20_memory.md R35 to R40);
the fields of `STATUS` (10_state.md R19) and the platform's window (R32). -/

namespace Sys2Proof.Machine

/-! ### Where an aligned offset stands -/

theorem eq_ofNat_of_toNat_eq {a : BitVec 9} {n : Nat} (h : a.toNat = n) : a = BitVec.ofNat 9 n := by
  rw [← h, BitVec.ofNat_toNat, BitVec.setWidth_eq]

section
variable {a : BitVec 9}

theorem regionOf_of_scalarLow {n : Fin 8} (h : a.toNat = 0x040 + 8 * n.val) :
    regionOf a = .scalarWord n false := by
  rw [eq_ofNat_of_toNat_eq h, regionOf_scalarLow]

theorem regionOf_of_scalarHigh {n : Fin 8} (h : a.toNat = 0x044 + 8 * n.val) :
    regionOf a = .scalarWord n true := by
  rw [eq_ofNat_of_toNat_eq h, regionOf_scalarHigh]

theorem regionOf_of_value {n : Fin 8} {k : Fin 4} (h : a.toNat = 0x080 + 16 * n.val + 4 * k.val) :
    regionOf a = .valueWord n k := by
  rw [eq_ofNat_of_toNat_eq h, regionOf_value]

theorem regionOf_of_ibuf {k : Fin 16} (h : a.toNat = 0x100 + 4 * k.val) :
    regionOf a = .ibufWord k := by
  rw [eq_ofNat_of_toNat_eq h, regionOf_ibuf]

theorem regionOf_of_obuf {k : Fin 16} (h : a.toNat = 0x140 + 4 * k.val) :
    regionOf a = .obufWord k := by
  rw [eq_ofNat_of_toNat_eq h, regionOf_obuf]

end

/-! ### Legal accesses -/

section
variable {a : Access}

theorem performAccess_read (hwe : a.we = false) (hl : a.legal = true) (s : State) :
    performAccess a s = s.reply (.data (readWindow s a.addr)) := by
  simp [performAccess, hl, hwe]

theorem performAccess_write (hwe : a.we = true) (hl : a.legal = true) (s : State) :
    performAccess a s = (writeWindow s a.addr a.wdata).reply .written := by
  simp [performAccess, hl, hwe]

end

/-- No read answers from the host's own fields. -/
theorem readWindow_setPending (s : State) (p : List HostInput) (a : BitVec 9) :
    readWindow (s.setPending p) a = readWindow s a := by
  unfold readWindow
  cases regionOf a <;> rfl

/-- An answered write to `IBUF`, for any content. -/
theorem setIbuf_reply (s : State) (p : List HostInput) (b : Buffer) (x : Reply) :
    ((s.setPending p).setIbuf b).reply x =
      { s with ibuf := b, pending := p, replies := s.replies ++ [x] } := rfl

/-! ### Lanes and halves -/

theorem putHalf_low_toNat (x : Scalar) (w : Word) :
    (putHalf x false w).toNat = x.toNat / 2 ^ 32 * 2 ^ 32 + w.toNat := by
  rw [scalar_toNat_eq_halves, scalarHalf_high_putHalf_low, scalarHalf_putHalf_same,
    scalarHalf_high]

theorem putHalf_high_toNat (x : Scalar) (w : Word) :
    (putHalf x true w).toNat = w.toNat * 2 ^ 32 + x.toNat % 2 ^ 32 := by
  rw [scalar_toNat_eq_halves, scalarHalf_putHalf_same, scalarHalf_low_putHalf_high,
    scalarHalf_low]

theorem putHalf_putHalf (x : Scalar) (high : Bool) (w : Word) :
    putHalf (putHalf x high w) high w = putHalf x high w := by
  refine scalar_ext_halves fun b => ?_
  cases high <;> cases b <;> simp

/-- `ILEN` holds seven bits of what is written, and the rest read 0 (R25). -/
theorem setWidth_low_seven (w : Word) : (w.extractLsb' 0 7).setWidth 32 = w &&& 0x7F#32 := by
  apply BitVec.eq_of_getLsbD_eq
  intro i hi
  interval_cases i <;> simp

/-! ### Reading after a write -/

section
variable (s : State) (w : Word)

/-- A region that holds a whole written word reads it back. -/
theorem readRegion_writeRegion_same {x : Region}
    (hx : (∃ n high, x = .scalarWord n high) ∨ (∃ n k, x = .valueWord n k) ∨ ∃ k, x = .ibufWord k) :
    readRegion (writeRegion s w x) x = w := by
  rcases hx with ⟨n, high, rfl⟩ | ⟨n, k, rfl⟩ | ⟨k, rfl⟩
  · simp [readRegion, writeRegion]
  · simp [readRegion, writeRegion, lanesOf_putLanes_same]
  · simp [readRegion, writeRegion, lanesOf_putLanes_same]

/-- A write that issues no command leaves what every other region reads. -/
theorem readRegion_writeRegion_ne {x y : Region} (hx : x ≠ .cmd) (hxy : x ≠ y) :
    readRegion (writeRegion s w x) y = readRegion s y := by
  cases x with
  | cmd => exact absurd rfl hx
  | status | olen | id | obufWord | reserved => rfl
  | ilen =>
    cases y with
    | ilen => exact absurd rfl hxy
    | _ => rfl
  | scalarWord n high =>
    cases y with
    | scalarWord m low =>
      by_cases hnm : n = m
      · subst hnm
        obtain rfl : low = !high := by cases low <;> cases high <;> simp_all
        simp [readRegion, writeRegion]
      · simp [readRegion, writeRegion, State.getR_setR_ne s hnm]
    | _ => rfl
  | valueWord n k =>
    cases y with
    | valueWord m l =>
      by_cases hnm : n = m
      · subst hnm
        have hkl : l.val ≠ k.val := fun h => hxy (by rw [Fin.ext h])
        simp [readRegion, writeRegion, lanesOf_putLanes_ne _ _ w hkl]
      · simp [readRegion, writeRegion, State.getV_setV_ne s hnm]
    | _ => rfl
  | ibufWord k =>
    cases y with
    | ibufWord l =>
      have hkl : l.val ≠ k.val := fun h => hxy (by rw [Fin.ext h])
      simp [readRegion, writeRegion, lanesOf_putLanes_ne _ _ w hkl]
    | _ => simp [readRegion, writeRegion, statusWord, State.busy]

theorem writeRegion_writeRegion (x : Region) :
    writeRegion (writeRegion s w x) w x = writeRegion s w x := by
  cases x with
  | scalarWord n high => simp [writeRegion, putHalf_putHalf]
  | valueWord n k => simp [writeRegion, putLanes_putLanes]
  | ibufWord k => simp [writeRegion, State.setIbuf, putLanes_putLanes]
  | cmd | status | ilen | olen | id | obufWord | reserved => rfl

end

/-- The offsets of the R, V and `IBUF` words, range by range (R35). -/
theorem regionOf_of_storage {a : BitVec 9} (hlo : 0x040 ≤ a.toNat) (hhi : a.toNat < 0x140) :
    (∃ n high, regionOf a = .scalarWord n high) ∨ (∃ n k, regionOf a = .valueWord n k) ∨
      ∃ k, regionOf a = .ibufWord k := by
  have hrange : a.toNat < 0x080 ∨ (0x080 ≤ a.toNat ∧ a.toNat < 0x100) ∨ 0x100 ≤ a.toNat := by
    omega
  rcases hrange with h | ⟨h, h'⟩ | h <;> simp (disch := omega) [regionOf, if_neg, if_pos]

/-- Read-only and reserved offsets ignore a write (R36, R40): the other regions stand elsewhere. -/
theorem writeRegion_of_ignored {a : BitVec 9} (h4 : a.toNat % 4 = 0)
    (h : a.toNat ∈ [0x004, 0x00C, 0x010] ∨ (0x014 ≤ a.toNat ∧ a.toNat < 0x040) ∨
      0x140 ≤ a.toNat) (s : State) (w : Word) : writeRegion s w (regionOf a) = s := by
  have hoff := offset_regionOf a h4
  simp only [List.mem_cons, List.not_mem_nil, or_false] at h
  cases hx : regionOf a with
  | status | olen | id | obufWord | reserved => rfl
  | cmd | ilen | valueWord | ibufWord =>
    simp only [hx, Region.offset, ne_eq, reduceCtorEq, not_false_eq_true, forall_const] at hoff
    omega
  | scalarWord n high =>
    simp only [hx, Region.offset, ne_eq, reduceCtorEq, not_false_eq_true, forall_const] at hoff
    split at hoff <;> omega

/-! ### The fields of `STATUS` and the platform's window -/

/-- Bit 0 is `statusWord_bit_zero`. -/
theorem statusWord_flag_bits (s : State) :
    (statusWord s).getLsbD 1 = s.sticky ∧ (statusWord s).getLsbD 8 = s.tv ∧
    (statusWord s).getLsbD 9 = s.tn ∧ (statusWord s).getLsbD 10 = s.tu ∧
    (statusWord s).getLsbD 11 = s.nv := by
  simp [statusWord]

theorem statusWord_err (s : State) : (statusWord s).extractLsb' 4 4 = s.err.code := by
  apply BitVec.eq_of_getLsbD_eq
  intro i hi
  interval_cases i <;> simp [statusWord]

theorem windowOffset_inside (off : BitVec 9) :
    windowOffset (Config.ucbBase + off.toNat) = some off := by
  have hlt := off.isLt
  rw [windowOffset, if_pos (by omega), Nat.add_sub_cancel_left, BitVec.ofNat_toNat,
    BitVec.setWidth_eq]

theorem windowOffset_outside {a : Nat} (h : a < Config.ucbBase ∨ Config.ucbBase + 0x200 ≤ a) :
    windowOffset a = none :=
  if_neg (by omega)

/-! ### The statements -/

/-- Settles O9: the answer is the word of the offset's region. -/
theorem hostReadsFollowTheRegisterMap : Obligations.HostReadsFollowTheRegisterMap := by
  unfold Obligations.HostReadsFollowTheRegisterMap
  intro s a rest hi hp hwe hs h4
  have hl : a.legal = true := (Access.legal_iff a).2 ⟨hs, h4⟩
  refine ⟨readWindow s a.addr, ?_, fun h => ?_, fun h => ?_, fun h => ?_, fun h => ?_, fun h => ?_,
    fun n h => ?_, fun n h => ?_, fun n k j h => ?_, fun k j h => ?_, fun k j h => ?_, fun h => ?_⟩
  · rw [step_access_at_rest hi hp, performAccess_read hwe hl, readWindow_setPending]
    rfl
  · rw [eq_ofNat_of_toNat_eq h]
    rfl
  · rw [eq_ofNat_of_toNat_eq h]
    rfl
  · rw [eq_ofNat_of_toNat_eq h, readWindow_ilen, BitVec.toNat_setWidth_of_le (by decide)]
  · rw [eq_ofNat_of_toNat_eq h, readWindow_olen, BitVec.toNat_setWidth_of_le (by decide)]
  · rw [eq_ofNat_of_toNat_eq h]
    rfl
  · rw [readWindow, regionOf_of_scalarLow h]
    exact scalarHalf_low s.r[n]
  · rw [readWindow, regionOf_of_scalarHigh h]
    exact scalarHalf_high s.r[n]
  · rw [readWindow, regionOf_of_value h]
    exact lane_lanesOf s.v[n] k.val j.val (by omega) j.isLt
  · rw [readWindow, regionOf_of_ibuf h]
    exact lane_lanesOf s.ibuf k.val j.val (by omega) j.isLt
  · rw [readWindow, regionOf_of_obuf h]
    exact lane_lanesOf s.obuf k.val j.val (by omega) j.isLt
  · rw [readWindow, regionOf_reserved a.addr h]
    rfl

/-- Settles O10: the write's effect is that of the offset's region. -/
theorem hostWritesFollowTheRegisterMap : Obligations.HostWritesFollowTheRegisterMap := by
  unfold Obligations.HostWritesFollowTheRegisterMap
  intro s a rest hi hp hwe hs h4
  have hl : a.legal = true := (Access.legal_iff a).2 ⟨hs, h4⟩
  refine ⟨(writeRegion (s.setPending rest) a.wdata (regionOf a.addr)).reply .written, _, ?_, rfl,
    fun h => ?_, fun h => ?_, fun n h => ?_, fun n h => ?_, fun n k h => ?_, fun k h => ?_,
    fun h => ?_⟩
  · rw [step_access_at_rest hi hp, performAccess_write hwe hl, writeWindow]
  · rw [eq_ofNat_of_toNat_eq h]
    rfl
  · rw [eq_ofNat_of_toNat_eq h]
    rfl
  · rw [regionOf_of_scalarLow h]
    exact ⟨_, rfl, putHalf_low_toNat s.r[n] a.wdata⟩
  · rw [regionOf_of_scalarHigh h]
    exact ⟨_, rfl, putHalf_high_toNat s.r[n] a.wdata⟩
  · rw [regionOf_of_value h]
    exact ⟨_, rfl, fun i => putLanes_getElem s.v[n] k.val a.wdata i.val i.isLt⟩
  · rw [regionOf_of_ibuf h, writeRegion]
    exact ⟨_, setIbuf_reply s rest _ _,
      fun i => putLanes_getElem s.ibuf k.val a.wdata i.val i.isLt⟩
  · rw [writeRegion_of_ignored h4 h]
    rfl

/-- Settles O12: a region reads back what is written to it, and two aligned offsets of one region
are one offset, but for reserved ones, which ignore the write. -/
theorem writeThenRead : Obligations.WriteThenRead := by
  unfold Obligations.WriteThenRead
  intro s a b w ha hb
  refine ⟨fun h => ?_, fun hlo hhi => ?_, fun hcmd hab => ?_⟩
  · rw [eq_ofNat_of_toNat_eq h]
    exact setWidth_low_seven w
  · exact readRegion_writeRegion_same s w (regionOf_of_storage hlo hhi)
  · by_cases hres : regionOf a = .reserved
    · rw [writeWindow, hres, writeRegion]
    · refine readRegion_writeRegion_ne s w (fun h => hcmd ?_)
        fun h => hab (regionOf_injective ha hb h hres)
      rw [(regionOf_eq_cmd a).1 h]
      rfl

/-- Settles O13: the second write finds the region as the first one left it. -/
theorem registerWritesAreIdempotent : Obligations.RegisterWritesAreIdempotent := by
  unfold Obligations.RegisterWritesAreIdempotent
  exact fun s a w _ _ => writeRegion_writeRegion s w (regionOf a)

/-- Settles O15, field by field. -/
theorem statusWordFields : Obligations.StatusWordFields := by
  unfold Obligations.StatusWordFields
  intro s
  obtain ⟨hsticky, htv, htn, htu, hnv⟩ := statusWord_flag_bits s
  exact ⟨statusWord_bit_zero s, hsticky, statusWord_err s, htv, htn, htu, hnv⟩

/-- Settles O17, by the two sides of the window's bounds. -/
theorem platformWindow : Obligations.PlatformWindow := by
  unfold Obligations.PlatformWindow
  refine ⟨Nat.mul_mod_right .., fun off w => ?_, fun a w h => ?_⟩
  · simp [memRead, memWrite, windowOffset_inside]
  · simp [memRead, memWrite, windowOffset_outside h]

end Sys2Proof.Machine
end

section
/-! PROOFS. Round trips: what one command writes, another reads back (41_codec.md sections 1 and 2;
42_bitfields.md, STAMP's corner cases; 44_accessors.md, GETTIME's; 45_byteorder.md, FROMFOR's), and
GETVAR (R71). -/

namespace Sys2Proof.Machine

open Sys2Proof.Claims

/-! ### A register after the command that wrote it -/

/-- A command reads a value register as the command before it has written it. -/
theorem v_setV_finish (s : State) (d : VReg) (u : Value) (e : ErrorCode) :
    ((s.setV d u).finish e).v[d] = u := State.getV_setV_same s d u

/-- The last of two writes to one value register stands. -/
theorem setV_finish_setV_finish (s : State) (d : VReg) (u u' : Value) (e : ErrorCode) :
    (((s.setV d u).finish e).setV d u').finish e = (s.setV d u').finish e := by
  simp [State.setV, State.finish]

theorem r_setR_finish (s : State) (d : RReg) (x : Scalar) (e : ErrorCode) :
    ((s.setR d x).finish e).r[d] = x := State.getR_setR_same s d x

theorem v_setV_finish_ne (s : State) {d n : VReg} (h : d ≠ n) (u : Value) (e : ErrorCode) :
    ((s.setV d u).finish e).v[n] = s.v[n] := State.getV_setV_ne s h u

/-! ### Output read back as input (R60 to R66) -/

theorem paddedBuffer_take {bs : List Byte} (h : bs.length ≤ 64) :
    (paddedBuffer bs).toList.take bs.length = bs := by
  simpa using paddedBuffer_append_take [] h

/-- A string in the buffer, with its length, normalises to the value whose digits it holds. -/
theorem normalise_paddedBuffer {bs : List Byte} {u : Value} (h64 : bs.length ≤ 64)
    (h16 : bs.length ≠ 16) (h : (stripUrn bs).filter isHexDigit = hexs u.toList) :
    normalise (paddedBuffer bs) (BitVec.ofNat 7 bs.length) = some u := by
  have hlen : (BitVec.ofNat 7 bs.length).toNat = bs.length := by
    rw [BitVec.toNat_ofNat]
    omega
  rw [normalise_string _ _ (hlen.symm ▸ h64) (hlen.symm ▸ h16), hlen, paddedBuffer_take h64, h,
    if_pos (by rw [hexs_length, Vector.length_toList]), packHex_hexs]

/-- A string that starts with a hex digit has no lead. -/
theorem stripUrn_of_digit {c : Byte} (bs : List Byte) (h : isHexDigit c = true) :
    stripUrn (c :: bs) = c :: bs := by
  refine if_neg fun ⟨_, hlead⟩ => ?_
  obtain rfl : c = 0x75#8 := (List.cons.inj hlead).1
  exact absurd h (by decide)

theorem stripUrn_canon (u : Value) : stripUrn (canon u) = canon u := by
  obtain ⟨b0, b1, b2, b3, b4, b5, b6, b7, b8, b9, b10, b11, b12, b13, b14, b15, rfl⟩ := value_eta u
  exact stripUrn_of_digit _ (isHexDigit_hexDigit (hiNibble b0))

theorem stripUrn_hexs (u : Value) : stripUrn (hexs u.toList) = hexs u.toList := by
  obtain ⟨b0, b1, b2, b3, b4, b5, b6, b7, b8, b9, b10, b11, b12, b13, b14, b15, rfl⟩ := value_eta u
  exact stripUrn_of_digit _ (isHexDigit_hexDigit (hiNibble b0))

theorem stripUrn_lead_append (bs : List Byte) : stripUrn (urnLead ++ bs) = bs :=
  if_pos ⟨by simp [urnLead], rfl⟩

section
variable (u : Value)

theorem normalise_canon :
    normalise (paddedBuffer (canon u)) (BitVec.ofNat 7 (canon u).length) = some u :=
  normalise_paddedBuffer (by simp [canon_length]) (by simp [canon_length])
    (by rw [stripUrn_canon, filter_canon])

theorem normalise_hexs :
    normalise (paddedBuffer (hexs u.toList)) (BitVec.ofNat 7 (hexs u.toList).length) = some u :=
  normalise_paddedBuffer (by simp [hexs_length]) (by simp [hexs_length])
    (by rw [stripUrn_hexs, filter_hexs])

theorem normalise_urn :
    normalise (paddedBuffer (urnLead ++ canon u))
      (BitVec.ofNat 7 (urnLead ++ canon u).length) = some u :=
  normalise_paddedBuffer (by simp [canon_length, urnLead]) (by simp [canon_length, urnLead])
    (by rw [stripUrn_lead_append, filter_canon])

theorem normalise_bytes :
    normalise (paddedBuffer u.toList) (BitVec.ofNat 7 u.toList.length) = some u := by
  rw [normalise_raw _ _ (by simp)]
  congr 1
  ext i hi : 1
  simp

end

/-- Each output form holds the digits or the bytes of the value it is made from. -/
theorem output_normalises {i : Instr} {src : VReg}
    (hi : i ∈ [Instr.fmt src, .hex src, .urn src, .raw src]) (s : State) :
    ∃ bs, exec i s = succeed (s.setOut bs) ∧
      normalise (paddedBuffer bs) (BitVec.ofNat 7 bs.length) = some s.v[src] := by
  simp only [List.mem_cons, List.not_mem_nil, or_false] at hi
  rcases hi with rfl | rfl | rfl | rfl
  · exact ⟨_, exec_fmt src s, normalise_canon _⟩
  · exact ⟨_, exec_hex src s, normalise_hexs _⟩
  · exact ⟨_, exec_urn src s, normalise_urn _⟩
  · exact ⟨_, exec_raw src s, normalise_bytes _⟩

/-- The host copies the output to the input, with its length, and PARSE reads it. -/
theorem exec_parse_readBack {t : State} {u : Value} (h : normalise t.obuf t.olen = some u)
    (d : VReg) : ∃ t', exec (.parse d) { t with ibuf := t.obuf, ilen := t.olen } = .next t' ∧
      t'.v[d] = u ∧ t'.err = .noError :=
  ⟨_, exec_parse_of_some h d, State.getV_setV_same _ d u, rfl⟩

/-! ### Stamped values (R67 to R71) -/

section
variable (ver : BitVec 4) (u : Value)

/-- R69's stamp: the version nibble and the variant bits. -/
def stamped : Value := withRfcVariant (withVersion ver u)

theorem versionOf_stamped : versionOf (stamped ver u) = ver := by
  have hver := ver.isLt
  rw [versionOf_eq_iff, stamped, stamped_six]
  omega

theorem variantCode_stamped : variantCode (stamped ver u)[8] = 1 := by
  rw [variantCode, stamped, stamped_eight, if_neg (by omega), if_neg (by omega),
    if_pos (by omega)]

/-- Byte by byte: the two written bytes keep what the first stamp has put there. -/
theorem stamped_stamped : stamped ver (stamped ver u) = stamped ver u := by
  apply Vector.ext
  intro k hk
  by_cases h6 : k = 6
  · subst h6
    apply BitVec.eq_of_toNat_eq
    simp only [stamped, stamped_six]
    omega
  · by_cases h8 : k = 8
    · subst h8
      apply BitVec.eq_of_toNat_eq
      simp only [stamped, stamped_eight]
      omega
    · exact stamped_ne ver _ k hk h6 h8

end

section
variable {imm : BitVec 4}

theorem exec_stamp_eq_stamped (h : imm.toNat ∈ [1, 3, 4, 5, 6, 7, 8]) (d src : VReg) (s : State) :
    exec (.stamp d src imm) s = .next ((s.setV d (stamped imm s.v[src])).finish .noError) :=
  exec_stamp_of_valid h d src

/-- STAMP is SETVER followed by SETVAR (R69). -/
theorem setver_setvar_eq_stamp (h : imm.toNat ∈ [1, 3, 4, 5, 6, 7, 8]) (d src : VReg) (s : State) :
    ∃ t, exec (.setver d src imm) s = .next t ∧
      exec (.setvar d d) t = .next ((s.setV d (stamped imm s.v[src])).finish .noError) := by
  have hrange : 1 ≤ imm.toNat ∧ imm.toNat ≤ 8 := by
    simp only [List.mem_cons, List.not_mem_nil, or_false] at h
    omega
  refine ⟨_, exec_setver_of_valid hrange d src, ?_⟩
  rw [exec, execSetvar, State.getV_eq, v_setV_finish, succeed, setV_finish_setV_finish]
  rfl

/-- A stamp in place, on a register that a command has just written. -/
theorem exec_stamp_after_setV (h : imm.toNat ∈ [1, 3, 4, 5, 6, 7, 8]) (d : VReg) (u : Value)
    (s : State) : exec (.stamp d d imm) ((s.setV d u).finish .noError) =
      .next ((s.setV d (stamped imm u)).finish .noError) := by
  rw [exec_stamp_eq_stamped h, v_setV_finish, setV_finish_setV_finish]

end

theorem exec_getver (d : RReg) (src : VReg) (s : State) : exec (.getver d src) s =
    succeed (s.setR d ((versionOf s.v[src]).setWidth 64)) := rfl

theorem exec_getvar (d : RReg) (src : VReg) (s : State) : exec (.getvar d src) s =
    succeed (s.setR d (BitVec.ofNat 64 (variantCode s.v[src][8]))) := rfl

/-! ### Minted times -/

section
variable (ver : BitVec 4) (u : Value)

theorem lowNibbleMask_toNat : ∀ b : Byte, (b &&& 0x0F#8).toNat = b.toNat % 16 := by decide

/-- A stamp leaves the low nibble of byte 6 to the time. -/
theorem stamped_six_low : (stamped ver u)[6] &&& 0x0F#8 = u[6] &&& 0x0F#8 := by
  apply BitVec.eq_of_toNat_eq
  rw [lowNibbleMask_toNat, lowNibbleMask_toNat, stamped, stamped_six]
  omega

/-- Without the version nibble eight time bytes hold sixty bits. -/
theorem sumBe_clear_version (b : Byte) {bs : List Byte} (h : bs.length = 7) :
    sumBe ((b &&& 0x0F#8) :: bs) = sumBe (b :: bs) % 2 ^ 60 := by
  have hlt := sumBe_lt bs
  rw [h] at hlt
  rw [sumBe, sumBe, lowNibbleMask_toNat, h]
  omega

/-- The ticks read back from a stamped version 1 value: the stamp takes the top four bits. -/
theorem ticksV1_stamped_toNat :
    (ticksV1 (stamped ver u)).toNat = sumBe (timeBytesV1 u) % 2 ^ 60 := by
  rw [ticksV1_eq, toNat_ofNat_sumBe (by simp), stamped_six_low, sumBe_clear_version _ rfl]
  simp [stamped, stamped_ne, timeBytesV1]

/-- The ticks of a version 6 value do not include the nibble that a stamp writes. -/
theorem ticksV6_stamped : ticksV6 (stamped ver u) = ticksV6 u := by
  rw [ticksV6_eq, ticksV6_eq, stamped_six_low]
  simp [stamped, stamped_ne]

theorem timeBytesV7_stamped : timeBytesV7 (stamped ver u) = timeBytesV7 u := by
  simp [stamped, stamped_ne, timeBytesV7]

theorem timeField_stamped_one : timeField (stamped 1#4 u) = .ticks (ticksV1 (stamped 1#4 u)) :=
  timeField_of_one ((versionOf_eq_iff 1#4).1 (versionOf_stamped 1#4 u))

theorem timeField_stamped_six : timeField (stamped 6#4 u) = .ticks (ticksV6 u) := by
  rw [timeField_of_six ((versionOf_eq_iff 6#4).1 (versionOf_stamped 6#4 u)), ticksV6_stamped]

theorem timeField_stamped_seven :
    timeField (stamped 7#4 u) = .millis (BitVec.ofNat 64 (sumBe (timeBytesV7 u))) := by
  rw [timeField_of_seven ((versionOf_eq_iff 7#4).1 (versionOf_stamped 7#4 u)),
    timeBytesV7_stamped]

end

/-- Eight bytes of a scalar are the scalar. -/
theorem ofNat_sumBe_bytesBe (x : Scalar) :
    BitVec.ofNat 64 (sumBe (bytesBe x.toNat 8).toList) = x := by
  have hlt : x.toNat < 256 ^ 8 := x.isLt
  rw [sumBe_bytesBe, Nat.mod_eq_of_lt hlt, BitVec.ofNat_toNat, BitVec.setWidth_eq]

/-- Clearing bits subtracts them. -/
theorem and_not_eq_sub (x y : Scalar) : x &&& ~~~y = x - (x &&& y) := by
  have hdisj : (x &&& ~~~y) &&& (x &&& y) = 0#64 := by
    ext i hi
    cases h : y[i] <;> simp [h]
  have hor : (x &&& ~~~y) ||| (x &&& y) = x := by
    ext i hi
    cases h : y[i] <;> simp [h]
  have hsum := BitVec.add_eq_or_of_and_eq_zero _ _ hdisj
  exact eq_sub_of_add_eq (hsum.trans hor)

/-- The ticks of a packed version 6 value, less the offset: the scalar less the lost bits. -/
theorem ticksV6_packed_value (x : Scalar) (u : Value) (m : Bool) :
    (TimeField.ticks (ticksV6 (withMulticast m (layoutV6 (gregorianTicks x) u)))).value =
      x - ((x + Config.epochOffset) &&& 0x000000000000F000#64) := by
  rw [TimeField.value, ticksV6, be_timeV6, timeBytesV6_withMulticast, timeBytesV6_layoutV6,
    ofNat_sumBe_bytesBe, and_not_eq_sub, gregorianTicks]
  ring

/-- The packed ticks of version 1 read back exactly when they fit sixty bits. -/
theorem ticksV1_packed_exact (x : Scalar) (u : Value) (m : Bool) (ver : BitVec 4) :
    ((ticksV1 (stamped ver (withMulticast m (layoutV1 (gregorianTicks x) u)))).toNat : Int) - epoch
      = x.toNat ↔ x.toNat + epoch < 2 ^ 60 := by
  rw [ticksV1_stamped_toNat, sumBe_timeBytesV1_packed]
  omega

/-- The stamp in place and GETTIME, on what a packer has written. -/
theorem stamp_gettime {imm : BitVec 4} (h : imm.toNat ∈ [1, 3, 4, 5, 6, 7, 8]) {u : Value}
    {f : TimeField} (hf : timeField (stamped imm u) = f) (d : VReg) (e : RReg) (s : State) :
    ∃ t c, exec (.stamp d d imm) ((s.setV d u).finish .noError) = .next t ∧
      exec (.gettime e d) t = .next c ∧
      c.tv = f.valid ∧ c.tn = f.negative ∧ c.tu = f.unitMillis ∧ c.r[e] = f.value := by
  refine ⟨_, _, exec_stamp_after_setV h d u s, exec_gettime (f := f) ?_ e, rfl, rfl, rfl, ?_⟩
  · rw [v_setV_finish, hf]
  · exact Vector.getElem_set_self e.isLt

/-! ### Byte order -/

theorem swapIndex_swapIndex : ∀ k : Fin 16, swapIndex (swapIndex k) = k := by decide

theorem swapFields_swapFields (u : Value) : swapFields (swapFields u) = u :=
  (value_eq_iff_bytes _ _).2 fun k => by
    simp only [swapFields_getElem, swapIndex_swapIndex]

theorem exec_tofor (d src : VReg) (s : State) :
    exec (.tofor d src) s = succeed (s.setV d (swapFields s.v[src])) := rfl

theorem exec_fromfor (d src : VReg) (s : State) :
    exec (.fromfor d src) s = succeed (s.setV d (swapFields s.v[src])) := rfl

theorem boolScalar_beq_self (u : Value) : boolScalar (u == u) = 1#64 := by
  simp [boolScalar]

/-! ### The statements -/

/-- Settles O39: PARSE normalises what the output form has put into the buffer. -/
theorem outputParsesBackToTheValue : Obligations.OutputParsesBackToTheValue := by
  unfold Obligations.OutputParsesBackToTheValue
  intro i src d s hi
  obtain ⟨bs, hexec, hnorm⟩ := output_normalises hi s
  obtain ⟨t', hparse, hv, herr⟩ := exec_parse_readBack (t := (s.setOut bs).finish .noError) hnorm d
  exact ⟨_, t', hexec, hparse, hv, herr⟩

/-- Settles O43: a second stamp finds its own bits. -/
theorem stampedValuesReadBack : Obligations.StampedValuesReadBack := by
  unfold Obligations.StampedValuesReadBack
  intro d src e f imm s h
  refine ⟨_, exec_stamp_eq_stamped h d src s, ?_, setver_setvar_eq_stamp h d src s,
    ⟨_, exec_getver e d _, ?_⟩, ⟨_, exec_getvar f d _, ?_⟩⟩
  · rw [exec_stamp_after_setV h, stamped_stamped]
  · rw [r_setR_finish, v_setV_finish, versionOf_stamped, BitVec.toNat_setWidth_of_le (by decide)]
  · rw [r_setR_finish, v_setV_finish, variantCode_stamped]

/-- Settles O45, threshold by threshold. -/
theorem getvarClassifiesByteEight : Obligations.GetvarClassifiesByteEight := by
  unfold Obligations.GetvarClassifiesByteEight
  intro d src s
  refine ⟨decode_word_getvar d src, _, exec_getvar d src s, fun h => ?_, fun h => ?_, fun h => ?_,
    fun h => ?_⟩ <;> simp (disch := omega) only [variantCode, if_neg, if_pos]

/-- Settles O52: each version's time field, through its packer and its stamp. -/
theorem mintedTimesReadBack : Obligations.MintedTimesReadBack := by
  unfold Obligations.MintedTimesReadBack
  intro d src t e m s
  refine ⟨?_, ?_, ?_⟩
  · obtain ⟨s2, c, h2, hc, htv, htn, htu, hr⟩ := stamp_gettime (by decide)
      (timeField_stamped_one _) d e s
    refine ⟨_, _, c, rfl, _, s2, rfl, h2, hc, htv, htu, ?_⟩
    rw [htn, hr, exactTime_ticks]
    exact ticksV1_packed_exact ..
  · obtain ⟨s2, c, h2, hc, htv, -, htu, hr⟩ := stamp_gettime (by decide)
      (timeField_stamped_six _) d e s
    exact ⟨_, _, c, rfl, _, s2, rfl, h2, hc, htv, htu, hr.trans (ticksV6_packed_value ..)⟩
  · obtain ⟨s2, c, h2, hc, htv, htn, htu, hr⟩ := stamp_gettime (by decide)
      (timeField_stamped_seven _) d e s
    refine ⟨_, _, c, rfl, _, s2, rfl, h2, hc, htv, htu, htn, ?_⟩
    rw [hr, TimeField.value, toNat_ofNat_sumBe (by simp [timeBytesV7])]
    exact sumBe_timeBytesV7_packed ..

/-- Settles O54: the swap is its own inverse, and the source is still there to compare with. -/
theorem foreignOrderRoundTrip : Obligations.ForeignOrderRoundTrip := by
  unfold Obligations.ForeignOrderRoundTrip
  intro a b c e s hab hac
  refine ⟨_, _, _, exec_tofor b a s, exec_fromfor c b _, exec_cmp e a c _, ?_, ?_⟩
  · rw [v_setV_finish, v_setV_finish, swapFields_swapFields]
  · rw [r_setR_finish, v_setV_finish_ne _ hac.symm, v_setV_finish_ne _ hab.symm, v_setV_finish,
      v_setV_finish, swapFields_swapFields, boolScalar_beq_self]

end Sys2Proof.Machine
end
